-- ==== Sys2Proof/Word.lean ====
section
/-! DEFINITION. The words of the machine (00_scope R9, 30_encoding R80, R90) and the small fixed vocabularies the spec
names: backends, lines, levels, colours, orientations, phases, error classes (10_state R20 to R33, 60_exceptions R201). -/

namespace Sys2Proof

/-- An 8-bit payload, colour channel or framer byte (`u8`, 00_scope R9). -/
abbrev Byte := BitVec 8

/-- A 16-bit operand or packed pixel (`u16`, 00_scope R9). -/
abbrev Half := BitVec 16

/-- A 9-bit word on the link (`u9`, 30_encoding R80). -/
abbrev LinkWord := BitVec 9

/-- A 68-bit request word `REQ` (30_encoding R90). -/
abbrev ReqWord := BitVec 68

/-- What is presented for execution: a request word at the `REQ` port (30_encoding R90), or, one level down, a 9-bit
word for the link (00_scope R1, 30_encoding R80). -/
inductive Frame where
  | req (w : ReqWord)
  | link (w : LinkWord)
  deriving DecidableEq, Repr

/-- Three 8-bit channels (10_state R26). -/
structure Color where
  r : Byte
  g : Byte
  b : Byte
  deriving DecidableEq, Repr, Inhabited

/-- The transport backend (10_state R21); bit value 0 is `hwSerial`, 1 is `bitBang`. -/
inductive Backend where
  | hwSerial
  | bitBang
  deriving DecidableEq, Repr, Inhabited

/-- The five output lines (10_state R22). -/
inductive Line where
  | cs
  | sck
  | sda
  | rst
  | bl
  deriving DecidableEq, Repr

/-- The level a line latch holds: 0, 1 or X (10_state R33). -/
inductive Level where
  | zero
  | one
  | x
  deriving DecidableEq, Repr

/-- The four orientations (10_state R24). -/
inductive Orientation where
  | deg0
  | deg90
  | deg180
  | deg270
  deriving DecidableEq, Repr

/-- The life-cycle phases (10_state R28). -/
inductive Phase where
  | off
  | init
  | ready
  | failed
  | closed
  deriving DecidableEq, Repr

/-- The four error classes (60_exceptions R200, R201). -/
inductive Err where
  | transport
  | invalidParam
  | unsupportedMode
  | notReady
  deriving DecidableEq, Repr

/-- The four bytes of the shadow register `WIN` (10_state R35). -/
structure Window where
  xs : Byte
  xe : Byte
  ys : Byte
  ye : Byte
  deriving DecidableEq, Repr

/-- The pin and device identifiers the block passes on and never interprets (10_state R22, 00_scope R6), as plain numbers. -/
structure Ids where
  spiDevice : Nat
  spiClockHz : Nat
  pinCs : Nat
  pinSck : Nat
  pinSda : Nat
  pinRst : Nat
  pinBl : Nat
  deriving DecidableEq, Repr, Inhabited

/-- Where the six bits of a channel stand in an 18-bit pixel's byte, the values of `PIX18_ALIGN` (00_scope R6, D12; log 20):
`left` is bits 7 to 2, `right` is bits 5 to 0. -/
inductive Pix18Align where
  | left
  | right
  deriving DecidableEq, Repr

/-- The open parameters of the step relation (00_scope R6, 10_state R40): the three MADCTR masks (46_orientation R171,
D16), `T_SLPOUT_MS` (43_sequencer R137, D21) and `PIX18_ALIGN` (D12). -/
structure Params where
  madctrMY : Byte
  madctrMX : Byte
  madctrMV : Byte
  slpoutMs : Nat
  pix18Align : Pix18Align
  deriving DecidableEq, Repr

end Sys2Proof
end

