-- ==== Sys2Proof/Syntax.lean ====
section
/-! DEFINITION. The instructions: one constructor per row of spec/opcode_table.json, thirteen requests (30_encoding R91)
and ten link words (30_encoding R83). Operand widths are those of 30_encoding R92. -/

namespace Sys2Proof

/-- One request of the host, or one word for the link. -/
inductive Instr where
  /-- INIT, `op` 0x1 (43_sequencer R130). -/
  | init
  /-- SET_ORIENTATION d, `op` 0x2 (46_orientation R170). -/
  | setOrientation (degrees : Half)
  /-- SET_WINDOW x, y, w, h, `op` 0x3 (44_window_clear R150). -/
  | setWindow (x y w h : Half)
  /-- CLEAR r, g, b, `op` 0x4 (44_window_clear R152). -/
  | clear (r g b : Byte)
  /-- SEND_PIXEL r, g, b, `op` 0x5 (45_pixel_streaming R160). -/
  | sendPixel (r g b : Byte)
  /-- SEND_PIXEL_P16 p, `op` 0x6 (45_pixel_streaming R161). -/
  | sendPixelP16 (p : Half)
  /-- CLOSE, `op` 0x7 (43_sequencer R144). -/
  | close
  /-- SEND_CMD b, `op` 0x8 (42_framer R122). -/
  | sendCmd (b : Byte)
  /-- SEND_DATA b, `op` 0x9 (42_framer R123). -/
  | sendData (b : Byte)
  /-- PACK565 r, g, b, `op` 0xA (41_color_packer R110). -/
  | pack565 (r g b : Byte)
  /-- UNPACK565 p, `op` 0xB (41_color_packer R112). -/
  | unpack565 (p : Half)
  /-- FRAME_CMD b, `op` 0xC (42_framer R120). -/
  | frameCmd (b : Byte)
  /-- FRAME_DATA b, `op` 0xD (42_framer R121). -/
  | frameData (b : Byte)
  /-- SWRESET, link word 0x001 (47_link_commands R180). -/
  | swreset
  /-- SLPOUT, link word 0x011 (47_link_commands R181). -/
  | slpout
  /-- DISPON, link word 0x029 (47_link_commands R182). -/
  | dispon
  /-- CASET, link word 0x02A (47_link_commands R183). -/
  | caset
  /-- RASET, link word 0x02B (47_link_commands R184). -/
  | raset
  /-- RAMWR, link word 0x02C (47_link_commands R185). -/
  | ramwr
  /-- MADCTR, link word 0x036 (47_link_commands R186). -/
  | madctr
  /-- COLMOD, link word 0x03A (47_link_commands R187). -/
  | colmod
  /-- NVCTR, link word 0x0B4 (47_link_commands R188). -/
  | nvctr
  /-- The data word `0x100 + d` (47_link_commands R189). -/
  | data (d : Byte)
  deriving DecidableEq, Repr

end Sys2Proof
end

