-- ==== Sys2Proof/WellFormed.lean ====
section
/-! DEFINITION. Well-formedness checks: of a raw number as a word of its format (30_encoding R80, R90), of an
instruction, and of the open parameters (46_orientation R171). -/

namespace Sys2Proof

/-- A raw number of a link word (at most 16 bits of storage) has nine significant bits (30_encoding R80); a raw request
number has 68 (30_encoding R90). -/
def rawFits (nbits w : Nat) : Bool :=
  if nbits ≤ 16 then decide (w < 2 ^ 9) else decide (w < 2 ^ 68)

/-- Every operand has the width 30_encoding R92 gives it by its type, and every value of that width may be presented: a
value the operation does not take is answered at run time with an error (30_encoding R94), never undecodable. -/
def Instr.wf : Instr → Bool
  | .init | .close | .swreset | .slpout | .dispon | .caset | .raset | .ramwr | .madctr | .colmod | .nvctr => true
  | .setOrientation _ | .sendPixelP16 _ | .unpack565 _ => true
  | .setWindow _ _ _ _ => true
  | .clear _ _ _ | .sendPixel _ _ _ | .pack565 _ _ _ => true
  | .sendCmd _ | .sendData _ | .frameCmd _ | .frameData _ | .data _ => true

/-- The byte has exactly one bit set (46_orientation R171: "single-bit masks"). -/
def singleBit (m : Byte) : Bool :=
  m != 0#8 && (m &&& (m - 1#8)) == 0#8

/-- What 46_orientation R171 lets a model assume of the MADCTR masks: three distinct single-bit masks of a byte. -/
def Params.wf (p : Params) : Bool :=
  singleBit p.madctrMY && singleBit p.madctrMX && singleBit p.madctrMV &&
    p.madctrMY != p.madctrMX && p.madctrMY != p.madctrMV && p.madctrMX != p.madctrMV

end Sys2Proof
end

