-- ==== Sys2Proof/Decode.lean ====
section
/-! DEFINITION. The decoder of request words (30_encoding R90 to R94) and of link words (R80 to R83), total and rejecting
by name, and the encoder written from the same tables. -/

namespace Sys2Proof

/-- What decoding a frame answers: an instruction, or the name of why there is none. -/
inductive Decoded where
  /-- The frame is this instruction. -/
  | ok (i : Instr)
  /-- A request whose `op` is 0x0, 0xE or 0xF (30_encoding R94). -/
  | reservedOp (op : BitVec 4)
  /-- A command word whose code is outside the table of 30_encoding R83 (R98, R190): no instruction of the table, but
  still sendable. -/
  | unnamedCommand (code : Byte)
  deriving DecidableEq, Repr

/-- `REQ[67:64]` (30_encoding R90). -/
def ReqWord.op (w : ReqWord) : BitVec 4 := w.extractLsb' 64 4

/-- `REQ[63:48]` (30_encoding R90). -/
def ReqWord.a0 (w : ReqWord) : Half := w.extractLsb' 48 16

/-- `REQ[47:32]` (30_encoding R90). -/
def ReqWord.a1 (w : ReqWord) : Half := w.extractLsb' 32 16

/-- `REQ[31:16]` (30_encoding R90). -/
def ReqWord.a2 (w : ReqWord) : Half := w.extractLsb' 16 16

/-- `REQ[15:0]` (30_encoding R90). -/
def ReqWord.a3 (w : ReqWord) : Half := w.extractLsb' 0 16

/-- An 8-bit operand is bits `[7:0]` of its field (30_encoding R92). -/
def lowByte (f : Half) : Byte := f.extractLsb' 0 8

/-- The framing bit `DC`, bit 8 of a link word (30_encoding R80). -/
def LinkWord.dc (w : LinkWord) : Bool := w.getLsbD 8

/-- The payload, bits 7 to 0 of a link word (30_encoding R80). -/
def LinkWord.payload (w : LinkWord) : Byte := w.extractLsb' 0 8

/-- The command word of a code: `{0, code}` (30_encoding R81). -/
def commandWord (code : Byte) : LinkWord := 0#1 ++ code

/-- The data word of a byte: `{1, byte}` (30_encoding R82). -/
def dataWord (byte : Byte) : LinkWord := 1#1 ++ byte

/-- SWRESET (30_encoding R83). -/
def codeSWRESET : Byte := 0x01#8
/-- SLPOUT (30_encoding R83). -/
def codeSLPOUT : Byte := 0x11#8
/-- DISPON (30_encoding R83). -/
def codeDISPON : Byte := 0x29#8
/-- CASET (30_encoding R83). -/
def codeCASET : Byte := 0x2A#8
/-- RASET (30_encoding R83). -/
def codeRASET : Byte := 0x2B#8
/-- RAMWR (30_encoding R83). -/
def codeRAMWR : Byte := 0x2C#8
/-- MADCTR (30_encoding R83). -/
def codeMADCTR : Byte := 0x36#8
/-- COLMOD (30_encoding R83). -/
def codeCOLMOD : Byte := 0x3A#8
/-- NVCTR (30_encoding R83). -/
def codeNVCTR : Byte := 0xB4#8

/-- The decoder of requests (30_encoding R91, R92, R94, R98). -/
def decodeReq (w : ReqWord) : Decoded :=
  let op := w.op
  if op = 0x1#4 then .ok .init
  else if op = 0x2#4 then .ok (.setOrientation w.a0)
  else if op = 0x3#4 then .ok (.setWindow w.a0 w.a1 w.a2 w.a3)
  else if op = 0x4#4 then .ok (.clear (lowByte w.a0) (lowByte w.a1) (lowByte w.a2))
  else if op = 0x5#4 then .ok (.sendPixel (lowByte w.a0) (lowByte w.a1) (lowByte w.a2))
  else if op = 0x6#4 then .ok (.sendPixelP16 w.a0)
  else if op = 0x7#4 then .ok .close
  else if op = 0x8#4 then .ok (.sendCmd (lowByte w.a0))
  else if op = 0x9#4 then .ok (.sendData (lowByte w.a0))
  else if op = 0xA#4 then .ok (.pack565 (lowByte w.a0) (lowByte w.a1) (lowByte w.a2))
  else if op = 0xB#4 then .ok (.unpack565 w.a0)
  else if op = 0xC#4 then .ok (.frameCmd (lowByte w.a0))
  else if op = 0xD#4 then .ok (.frameData (lowByte w.a0))
  else .reservedOp op

/-- The decoder of link words (30_encoding R80 to R83, R98). -/
def decodeLink (w : LinkWord) : Decoded :=
  let code := w.payload
  if w.dc then .ok (.data code)
  else if code = codeSWRESET then .ok .swreset
  else if code = codeSLPOUT then .ok .slpout
  else if code = codeDISPON then .ok .dispon
  else if code = codeCASET then .ok .caset
  else if code = codeRASET then .ok .raset
  else if code = codeRAMWR then .ok .ramwr
  else if code = codeMADCTR then .ok .madctr
  else if code = codeCOLMOD then .ok .colmod
  else if code = codeNVCTR then .ok .nvctr
  else .unnamedCommand code

/-- Decoding what is presented (30_encoding R98). -/
def decode : Frame → Decoded
  | .req w => decodeReq w
  | .link w => decodeLink w

/-- The frame of a raw number in `nbits` bits of storage (whole bytes): at most 16 bits hold a link word, more hold a
request; a number too wide for its format is no frame (log 28). -/
def frameOfRaw (nbits w : Nat) : Option Frame :=
  if rawFits nbits w then
    if nbits ≤ 16 then some (.link (BitVec.ofNat 9 w)) else some (.req (BitVec.ofNat 68 w))
  else none

/-- The instruction a raw table word decodes to. -/
def decodeTableWord (nbits w : Nat) : Option Instr :=
  match frameOfRaw nbits w with
  | none => none
  | some f =>
    match decode f with
    | .ok i => some i
    | .reservedOp _ => none
    | .unnamedCommand _ => none

/-- A request word from its fields (30_encoding R90). -/
def packReq (op : BitVec 4) (a0 a1 a2 a3 : Half) : ReqWord :=
  op ++ a0 ++ a1 ++ a2 ++ a3

/-- An 8-bit operand in its 16-bit field, the ignored upper byte 0 (30_encoding R92). -/
def byteField (b : Byte) : Half := 0#8 ++ b

/-- The encoder (30_encoding R83, R91); fields an operation does not use are 0. -/
def encode : Instr → Frame
  | .init => .req (packReq 0x1#4 0 0 0 0)
  | .setOrientation d => .req (packReq 0x2#4 d 0 0 0)
  | .setWindow x y w h => .req (packReq 0x3#4 x y w h)
  | .clear r g b => .req (packReq 0x4#4 (byteField r) (byteField g) (byteField b) 0)
  | .sendPixel r g b => .req (packReq 0x5#4 (byteField r) (byteField g) (byteField b) 0)
  | .sendPixelP16 p => .req (packReq 0x6#4 p 0 0 0)
  | .close => .req (packReq 0x7#4 0 0 0 0)
  | .sendCmd b => .req (packReq 0x8#4 (byteField b) 0 0 0)
  | .sendData b => .req (packReq 0x9#4 (byteField b) 0 0 0)
  | .pack565 r g b => .req (packReq 0xA#4 (byteField r) (byteField g) (byteField b) 0)
  | .unpack565 p => .req (packReq 0xB#4 p 0 0 0)
  | .frameCmd b => .req (packReq 0xC#4 (byteField b) 0 0 0)
  | .frameData b => .req (packReq 0xD#4 (byteField b) 0 0 0)
  | .swreset => .link (commandWord codeSWRESET)
  | .slpout => .link (commandWord codeSLPOUT)
  | .dispon => .link (commandWord codeDISPON)
  | .caset => .link (commandWord codeCASET)
  | .raset => .link (commandWord codeRASET)
  | .ramwr => .link (commandWord codeRAMWR)
  | .madctr => .link (commandWord codeMADCTR)
  | .colmod => .link (commandWord codeCOLMOD)
  | .nvctr => .link (commandWord codeNVCTR)
  | .data d => .link (dataWord d)

/-- The raw number and the storage bits (whole bytes) of a frame: 72 for a request, 16 for a link word. -/
def Frame.raw : Frame → Nat × Nat
  | .req w => (72, w.toNat)
  | .link w => (16, w.toNat)

end Sys2Proof
end

