-- ==== Sys2Proof/Config.lean ====
section
/-! DEFINITION. What is fixed for the block (00_scope R6) and the free values: constants without a body, which no proof
can see into, applied to the draw counter of the state wherever the spec says "unspecified" or "any value"
(93_implementation_defined part 1). Assumption log entries 6 to 10 and 23. -/

namespace Sys2Proof.Config

/-- `PANEL_W` (00_scope R6). -/
def panelW : Nat := 130

/-- `PANEL_H` (00_scope R6). -/
def panelH : Nat := 161

/-- `CLEAR_PIXELS` (00_scope R6): `PANEL_W * PANEL_H`. -/
def clearPixels : Nat := panelW * panelH

/-- `T_PWR_LOW_MS` (00_scope R6). -/
def tPwrLowMs : Nat := 200

/-- `T_PWR_HIGH_MS` (00_scope R6). -/
def tPwrHighMs : Nat := 200

/-- `T_SWRESET_MS` (00_scope R6). -/
def tSwresetMs : Nat := 200

/-- `PANEL_TEXT_ROWS` (00_scope R6, U30): the rounding of `PANEL_H/9` is not given; no rule reads it. Log 23. -/
opaque panelTextRows : Nat

/-- `PANEL_TEXT_COLS` (00_scope R6, U30): the rounding of `PANEL_W/6` is not given; no rule reads it. Log 23. -/
opaque panelTextCols : Nat

/-- The settling time a controller wants after SLPOUT: not in the source (70_reset_and_hazards R236, U21). Log 10. -/
opaque sleepOutSettleMs : Nat

/-- `RES` after a request that is not a pure operation (30_encoding R93, U13). Log 7. -/
opaque freeRes : Nat → BitVec 24

/-- `RSP` after a block reset: no response has been given (43_sequencer R145). Log 6. -/
opaque freeRsp : Nat → BitVec 3

/-- `BACKEND` after a block reset (10_state R41, U12). Log 6. -/
opaque freeBackend : Nat → Backend

/-- `COLORMODE` after a block reset (10_state R41, U12). Log 6. -/
opaque freeColorMode : Nat → Byte

/-- `FG` after a block reset (10_state R41, U12). Log 6. -/
opaque freeFg : Nat → Color

/-- `BG` after a block reset (10_state R41, U12). Log 6. -/
opaque freeBg : Nat → Color

/-- The pin and device identifiers after a block reset (10_state R41, U12). Log 6. -/
opaque freeIds : Nat → Ids

/-- The controller's colour-mode register where the spec states no value (10_state R39, R41). Log 8. -/
opaque freeCtlColMode : Nat → Byte

/-- The controller's memory-access-control register where the spec states no value (10_state R39, R41). Log 8. -/
opaque freeCtlMadctr : Nat → Byte

/-- The controller's column start where the spec states no value (10_state R39, R41). Log 8. -/
opaque freeCtlColStart : Nat → Half

/-- The controller's column end where the spec states no value (10_state R39, R41). Log 8. -/
opaque freeCtlColEnd : Nat → Half

/-- The controller's row start where the spec states no value (10_state R39, R41). Log 8. -/
opaque freeCtlRowStart : Nat → Half

/-- The controller's row end where the spec states no value (10_state R39, R41). Log 8. -/
opaque freeCtlRowEnd : Nat → Half

/-- The controller's sleep state where the spec states none (10_state R39, R41). Log 8. -/
opaque freeCtlAsleep : Nat → Bool

/-- The controller's display state where the spec states none (10_state R39, R41). Log 8. -/
opaque freeCtlDisplayOn : Nat → Bool

/-- The command the controller takes data words to belong to where the spec states none (U1, U2, R235). Log 8. -/
opaque freeCtlCmd : Nat → Option Byte

/-- The parameter bytes the controller has taken where the spec states none (U1, U2, R235). Log 8. -/
opaque freeCtlArgs : Nat → List Byte

end Sys2Proof.Config
end

