-- ==== Sys2Proof/Machine/State.lean ====
section
/-! DEFINITION. The state of the block (10_state R20 to R41), its inputs (R37, R40), the controller-side registers (R39),
and the state after reset. Assumption log entries 1 to 5, 9, 10, 12, 21, 24. -/

namespace Sys2Proof.Machine

/-- An event of `TRACE` (00_scope R11). -/
inductive Event where
  /-- `W9(w)`: one word accepted by the transport. -/
  | w9 (w : LinkWord)
  /-- `Pin(line, level)`: one digital write. -/
  | pin (l : Line) (v : Bool)
  /-- `PinMode(line)`: one line configured as an output. -/
  | pinMode (l : Line)
  /-- `Wait(n)`: one hold of at least `n` milliseconds. -/
  | wait (n : Nat)
  /-- `Open(backend)`: the transport handle acquired. -/
  | opened (b : Backend)
  /-- `Close`: the transport handle released. -/
  | closed
  deriving DecidableEq, Repr

/-- The latches of the five output lines (10_state R33). -/
structure Lines where
  cs : Level
  sck : Level
  sda : Level
  rst : Level
  bl : Level
  deriving DecidableEq, Repr

/-- The strap inputs and the identifiers the host drives (10_state R37, 70_reset_and_hazards R233). -/
structure Straps where
  backend : Backend
  colorMode : Byte
  fg : Color
  bg : Color
  ids : Ids
  deriving DecidableEq, Repr

/-- The controller-side registers the spec names (10_state R39), the command the next data word belongs to and the
bytes received since that command, newest first (47_link_commands R189). Log 8. -/
structure Controller where
  colMode : Byte
  madctr : Byte
  colStart : Half
  colEnd : Half
  rowStart : Half
  rowEnd : Half
  asleep : Bool
  displayOn : Bool
  cmd : Option Byte
  args : List Byte
  deriving DecidableEq, Repr

/-- What the host does next (10_state R37, 70_reset_and_hazards R230, R233, R235). Log 10, 11, 12. -/
inductive HostAct where
  /-- Present a request word at `REQ`, or a word for the link. -/
  | present (f : Frame)
  /-- Drive the straps. -/
  | drive (p : Straps)
  /-- Assert and release `BLOCK_RST`. -/
  | blockReset
  /-- Let at least `ms` milliseconds pass. -/
  | pause (ms : Nat)
  deriving DecidableEq, Repr

/-- The machine's state. -/
@[ext]
structure State where
  /-- `BACKEND` (10_state R21). -/
  backend : Backend
  /-- Pin and device identifiers (10_state R22). -/
  ids : Ids
  /-- `COLORMODE` (10_state R23). -/
  colorMode : Byte
  /-- `ORIENT` (10_state R24). -/
  orient : Orientation
  /-- `FG` (10_state R25). -/
  fg : Color
  /-- `BG` (10_state R25). -/
  bg : Color
  /-- `PHASE` (10_state R28). -/
  phase : Phase
  /-- `STEP` (10_state R29). -/
  stepNo : Fin 8
  /-- `PIXCNT` (10_state R30). -/
  pixCnt : Nat
  /-- `BITCNT` (10_state R30). -/
  bitCnt : Nat
  /-- `ERR` (10_state R31). -/
  err : BitVec 3
  /-- `TP_OPEN` (10_state R32). -/
  tpOpen : Bool
  /-- `L_CS`, `L_SCK`, `L_SDA`, `L_RST`, `L_BL` (10_state R33). -/
  lines : Lines
  /-- `LASTCMD`, `none` for NONE (10_state R34). -/
  lastCmd : Option Byte
  /-- `WIN`, `none` for NONE (10_state R35). -/
  win : Option Window
  /-- `TRACE` (10_state R36), newest event first; `State.trace` is the list in order. Log 21. -/
  traceRev : List Event
  /-- The output port `RSP` (30_encoding R93). -/
  rsp : BitVec 3
  /-- The output port `RES` (30_encoding R93). -/
  res : BitVec 24
  /-- The strap inputs (10_state R37). -/
  straps : Straps
  /-- The open parameters (10_state R40); no step writes them. -/
  params : Params
  /-- The host's acts, the next one first (10_state R37). -/
  host : List HostAct
  /-- The environment's answers to the next capability calls, `true` for success (20_memory R70); past the end of the
  list every call succeeds. Log 5. -/
  answers : List Bool
  /-- The controller-side registers (10_state R39). -/
  ctl : Controller
  /-- Milliseconds for which the controller may still miss words (70_reset_and_hazards R235, R236). Log 10. -/
  owed : Nat
  /-- How many free values have been drawn. Log 24. -/
  draws : Nat
  deriving DecidableEq, Repr

/-- `TRACE` in order, oldest event first (10_state R36). -/
def State.trace (s : State) : List Event := s.traceRev.reverse

/-- Why the machine stops. Each constructor is a broken precondition that the spec says always holds; no state reached
from reset raises one (log 13). -/
inductive Fault where
  /-- Raised by `linkSend`: `LinkSend` requires `TP_OPEN` = 1 (20_memory R51). Safe: the model stops where the spec gives
  no meaning. -/
  | transportNotOpen
  /-- Raised by `pinWrite`: the line must have been configured as an output (20_memory R73). Safe: the model stops where
  the spec gives no meaning. -/
  | lineNotConfigured
  /-- Raised by `streamPixel`: `COLORMODE` is none of its three values (10_state R42 (3), 45_pixel_streaming R162 gives no
  case). Safe: the model stops where the spec gives no meaning. -/
  | colorModeOutsideEnumeration
  deriving DecidableEq, Repr

/-- Why the machine has no meaning for an instruction. -/
inductive Refusal where
  /-- Raised by an arm of `exec` whose instruction has no meaning yet; no arm is so at present. Safe. -/
  | notModelled (mnemonic : String)
  deriving DecidableEq, Repr

/-- Every line X (10_state R41). -/
def Lines.undriven : Lines := ⟨.x, .x, .x, .x, .x⟩

/-- Black. -/
def colorZero : Color := ⟨0, 0, 0⟩

/-- Identifiers all 0 (log 1, 3). -/
def idsZero : Ids := ⟨0, 0, 0, 0, 0, 0, 0⟩

/-- The straps after reset: `CFG_COLORMODE` at the host-side default 0x05 (70_reset_and_hazards R231); the others are the
model's choice (log 3). -/
def strapsAtReset : Straps := ⟨.hwSerial, 0x05, colorZero, colorZero, idsZero⟩

/-- The open parameters at the spec's defaults (00_scope R6, D12, D16, D21; log 4, 20). -/
def paramsDefault : Params := ⟨0x80, 0x40, 0x20, 0, .left⟩

/-- The controller-side registers after reset: the model's choice (log 9). -/
def controllerAtReset : Controller :=
  ⟨0, 0, 0, 0, 0, 0, true, false, none, []⟩

/-- The machine right after reset (10_state R41); what R41 leaves unspecified is named by log entries 1 to 5, 9, 10, 12,
24. -/
def State.reset : State where
  backend := .hwSerial
  ids := idsZero
  colorMode := 0
  orient := .deg0
  fg := colorZero
  bg := colorZero
  phase := .off
  stepNo := 0
  pixCnt := 0
  bitCnt := 0
  err := 0
  tpOpen := false
  lines := Lines.undriven
  lastCmd := none
  win := none
  traceRev := []
  rsp := 0
  res := 0
  straps := strapsAtReset
  params := paramsDefault
  host := []
  answers := []
  ctl := controllerAtReset
  owed := 0
  draws := 0

end Sys2Proof.Machine
end

