-- ==== Sys2Proof/Machine/Operands.lean ====
section
/-! DEFINITION. The pure computations on operands: the colour packer (41_color_packer), the four window values
(44_window_clear R150, R151), the orientation table (46_orientation R171), the colour-mode values (30_encoding R84). -/

namespace Sys2Proof.Machine

/-- The colour-mode register value of 12-bit mode (10_state R23). -/
def mode12 : Byte := 0x03
/-- The colour-mode register value of 16-bit mode (10_state R23). -/
def mode16 : Byte := 0x05
/-- The colour-mode register value of 18-bit mode (10_state R23). -/
def mode18 : Byte := 0x06

/-- The value is in the enumeration of colour modes (10_state R23, 60_exceptions R203 (3)). -/
def colorModeKnown (m : Byte) : Bool := m == mode12 || m == mode16 || m == mode18

/-- `P565`, the packed value of a colour (41_color_packer R110). -/
def pack565 (c : Color) : Half :=
  ((c.r.setWidth 16 &&& 0xF8) <<< 8) ||| ((c.g.setWidth 16 &&& 0xFC) <<< 3) ||| (c.b.setWidth 16 >>> 3)

/-- UNPACK565: the three fields left-aligned with zero fill (41_color_packer R112). -/
def unpack565 (p : Half) : Color :=
  ⟨p.extractLsb' 11 5 ++ 0#3, p.extractLsb' 5 6 ++ 0#2, p.extractLsb' 0 5 ++ 0#3⟩

/-- `PIX666`: the three bytes of an 18-bit pixel, red first (41_color_packer R114, for `PIX18_ALIGN` = left). For right, to
which no rule gives a formula, the same six bits at the low end, the others zero (DESIGN CHOICE, log 20). -/
def pix666 (a : Pix18Align) (c : Color) : List Byte :=
  match a with
  | .left => [c.r &&& 0xFC, c.g &&& 0xFC, c.b &&& 0xFC]
  | .right => [c.r >>> 2, c.g >>> 2, c.b >>> 2]

/-- The high byte of a 16-bit value, sent first (20_memory R57). -/
def highByte (p : Half) : Byte := p.extractLsb' 8 8

/-- The two bytes of a 16-bit pixel, high byte first (30_encoding R86). -/
def pixel16 (p : Half) : List Byte := [highByte p, lowByte p]

/-- The four window values as natural numbers, without wrap-around (44_window_clear R150, R151, R154): column start
`x+2`, column end `x+w+1`, row start `y+1`, row end `y+h+1`. -/
structure WindowSums where
  xs : Nat
  xe : Nat
  ys : Nat
  ye : Nat
  deriving DecidableEq, Repr

/-- The sums of 44_window_clear R150 (the offsets of 00_scope R6, 20_memory R62). -/
def windowSums (x y w h : Half) : WindowSums :=
  ⟨x.toNat + 2, x.toNat + w.toNat + 1, y.toNat + 1, y.toNat + h.toNat + 1⟩

/-- The range check of 44_window_clear R151: every value at most `COORD_MAX` = 255. -/
def WindowSums.inRange (v : WindowSums) : Bool :=
  decide (v.xs ≤ 255) && decide (v.xe ≤ 255) && decide (v.ys ≤ 255) && decide (v.ye ≤ 255)

/-- The four window bytes; exact when `inRange` holds (30_encoding R85). -/
def WindowSums.bytes (v : WindowSums) : Window :=
  ⟨BitVec.ofNat 8 v.xs, BitVec.ofNat 8 v.xe, BitVec.ofNat 8 v.ys, BitVec.ofNat 8 v.ye⟩

/-- The orientation an operand in degrees names, if it is one of the four (46_orientation R170, R172). -/
def orientationOf (d : Half) : Option Orientation :=
  if d = 0 then some .deg0
  else if d = 90 then some .deg90
  else if d = 180 then some .deg180
  else if d = 270 then some .deg270
  else none

/-- `MadctrByte` (46_orientation R171), over the open parameters. -/
def madctrByte (p : Params) : Orientation → Byte
  | .deg0 => 0
  | .deg90 => p.madctrMV ||| p.madctrMX
  | .deg180 => p.madctrMY ||| p.madctrMX
  | .deg270 => p.madctrMV ||| p.madctrMY

/-- `RES` after PACK565 (30_encoding R93): the packed value, upper byte 0. -/
def resOfPacked (p : Half) : BitVec 24 := p.setWidth 24

/-- `RES` after UNPACK565 (30_encoding R93): `{r, g, b}`. -/
def resOfColor (c : Color) : BitVec 24 := c.r ++ c.g ++ c.b

/-- `RES` after FRAME_CMD and FRAME_DATA (30_encoding R93): the 9-bit word, upper bits 0. -/
def resOfWord (w : LinkWord) : BitVec 24 := w.setWidth 24

end Sys2Proof.Machine
end

