-- ==== Sys2Proof/Machine/Controller.lean ====
section
/-! DEFINITION. What the spec says a word does to the controller-side registers (10_state R39, 47_link_commands R180 to
R190). Where it states an effect, that is the register's value; elsewhere the registers hold free values (U1, U2, U19 to U21),
except for five points that the model settles by its own choice: an end below its start, a window beyond the panel (U16; log
29, 30), the bytes of an open stream, whatever their number (U17; log 31), pixel bytes with no open stream (U17; log 32), and
a colour mode sent after initialisation (R187; log 33). Log entries 8, 10, 29 to 33. -/

namespace Sys2Proof.Machine

/-- Controller-side registers about which the spec states nothing, at draw `n` (10_state R41, U20). -/
def Controller.unknown (n : Nat) : Controller where
  colMode := Config.freeCtlColMode n
  madctr := Config.freeCtlMadctr n
  colStart := Config.freeCtlColStart n
  colEnd := Config.freeCtlColEnd n
  rowStart := Config.freeCtlRowStart n
  rowEnd := Config.freeCtlRowEnd n
  asleep := Config.freeCtlAsleep n
  displayOn := Config.freeCtlDisplayOn n
  cmd := Config.freeCtlCmd n
  args := Config.freeCtlArgs n

/-- After power-reset by the `RST` line no command has been sent (47_link_commands R189); the registers are unspecified
(U20). -/
def Controller.wireReset (n : Nat) : Controller :=
  { Controller.unknown n with cmd := none, args := [] }

/-- A command word is received. SWRESET leaves the registers at values the spec does not give (R180); SLPOUT leaves sleep
(R181); DISPON turns the display on (R182); CASET, RASET, MADCTR and COLMOD select a register whose value is open until
its parameters are complete (R183, R184, R186, R187); RAMWR opens the pixel stream (R185); the effect of NVCTR and of an
unnamed code is not given (R188, R190). Every command ends the parameters, or the stream, of the one before. -/
def Controller.receiveCommand (n : Nat) (code : Byte) (c : Controller) : Controller :=
  if code = codeSWRESET then { Controller.unknown n with cmd := some code, args := [] }
  else if code = codeSLPOUT then { c with cmd := some code, args := [], asleep := false }
  else if code = codeDISPON then { c with cmd := some code, args := [], displayOn := true }
  else if code = codeCASET then
    { c with cmd := some code, args := [], colStart := Config.freeCtlColStart n, colEnd := Config.freeCtlColEnd n }
  else if code = codeRASET then
    { c with cmd := some code, args := [], rowStart := Config.freeCtlRowStart n, rowEnd := Config.freeCtlRowEnd n }
  else if code = codeRAMWR then { c with cmd := some code, args := [] }
  else if code = codeMADCTR then { c with cmd := some code, args := [], madctr := Config.freeCtlMadctr n }
  else if code = codeCOLMOD then { c with cmd := some code, args := [], colMode := Config.freeCtlColMode n }
  else { Controller.unknown n with cmd := some code, args := [] }

/-- A data word is received: the next parameter of the command before it, or the next byte of the pixel stream (R189).
`args` holds the bytes so far, newest first. CASET and RASET fill their range with the fourth byte, each value high byte
first (R183, R184); MADCTR and COLMOD with the first (R186, R187; a COLMOD value outside the three has an effect not
given); a further parameter, a parameter of a command that has none, and a byte before any command have effects the spec
does not give (R165, R189, U17, U19). Five points here are the MODEL'S CHOICE (DESIGN CHOICE), since the spec leaves what the
controller does open: a range whose end is below its start (`w` = 0) is stored as sent (44_window_clear
R154, R183, U16; log 29); a range beyond the panel is stored as sent (R153, U16; log 30); a byte of the open pixel stream is
kept in `args` and changes no other register, also when the window is full or the bytes make no whole pixel
(70_reset_and_hazards R238, U17; log 31); pixel bytes sent while CASET, RASET, MADCTR or COLMOD is the command in force have the
effect of parameters of that command, the other registers kept (45_pixel_streaming R165, U17; log 32); a known COLMOD byte is
stored whenever it is sent, after initialisation too (R187; log 33). -/
def Controller.receiveData (n : Nat) (d : Byte) (c : Controller) : Controller :=
  match c.cmd with
  | none => Controller.wireReset n
  | some code =>
    let args := d :: c.args
    let lost : Controller := { Controller.unknown n with cmd := some code, args := args }
    if code = codeRAMWR then { c with args := args }
    else if code = codeCASET then
      match args with
      | [endLow, endHigh, startLow, startHigh] =>
        { c with args := args, colStart := startHigh ++ startLow, colEnd := endHigh ++ endLow }
      | _ :: _ :: _ :: _ :: _ :: _ => lost
      | _ => { c with args := args, colStart := Config.freeCtlColStart n, colEnd := Config.freeCtlColEnd n }
    else if code = codeRASET then
      match args with
      | [endLow, endHigh, startLow, startHigh] =>
        { c with args := args, rowStart := startHigh ++ startLow, rowEnd := endHigh ++ endLow }
      | _ :: _ :: _ :: _ :: _ :: _ => lost
      | _ => { c with args := args, rowStart := Config.freeCtlRowStart n, rowEnd := Config.freeCtlRowEnd n }
    else if code = codeMADCTR then
      match args with
      | [b] => { c with args := args, madctr := b }
      | _ => lost
    else if code = codeCOLMOD then
      match args with
      | [b] => if colorModeKnown b then { c with args := args, colMode := b } else lost
      | _ => lost
    else lost

/-- A word is received. While quiet time is owed the controller may miss it, so nothing is stated (R235, R236, U21). -/
def Controller.receive (n owed : Nat) (w : LinkWord) (c : Controller) : Controller :=
  if owed = 0 then
    if w.dc then Controller.receiveData n w.payload c else Controller.receiveCommand n w.payload c
  else Controller.unknown n

/-- Quiet time owed after a word: 200 ms after SWRESET (R235), the controller's settling time after SLPOUT (R236). -/
def owedAfterWord (w : LinkWord) (owed : Nat) : Nat :=
  if w = commandWord codeSWRESET then max owed Config.tSwresetMs
  else if w = commandWord codeSLPOUT then max owed Config.sleepOutSettleMs
  else owed

/-- A word the transport accepted reaches the controller (00_scope R7 (4)). -/
def State.deliver (w : LinkWord) (s : State) : State :=
  { s with
    ctl := Controller.receive s.draws s.owed w s.ctl
    owed := owedAfterWord w s.owed
    draws := s.draws + 1 }

/-- A write of the `RST` line reaches the controller: low resets it by wire (70_reset_and_hazards R232 (2)), and after
either level it is owed 200 ms (R235). Other lines carry words and reset nothing. -/
def State.wire (l : Line) (v : Bool) (s : State) : State :=
  match l, v with
  | .rst, false => { s with ctl := Controller.wireReset s.draws, owed := max s.owed Config.tPwrLowMs, draws := s.draws + 1 }
  | .rst, true => { s with owed := max s.owed Config.tPwrHighMs }
  | _, _ => s

/-- Nothing is stated of the controller any more (U1, U2, U31). -/
def State.forgetController (s : State) : State :=
  { s with ctl := Controller.unknown s.draws, draws := s.draws + 1 }

end Sys2Proof.Machine
end

