-- ==== Sys2Proof/Machine/Flags.lean ====
section
/-! DEFINITION. The status a request leaves. The block has no flags or condition codes (10_state R38); its status is the
response code (60_exceptions R201) and the derived predicate `STREAM_OPEN` (10_state R34). -/

namespace Sys2Proof.Machine

/-- The response code of a request that completes (60_exceptions R201). -/
def codeOK : BitVec 3 := 0

/-- The code of an error class on `RSP` and in `ERR` (60_exceptions R201). -/
def errCode : Err → BitVec 3
  | .transport => 1
  | .invalidParam => 2
  | .unsupportedMode => 3
  | .notReady => 4

/-- `STREAM_OPEN`: the last command sent was RAMWR (10_state R34). -/
def State.streamOpen (s : State) : Bool := s.lastCmd == some codeRAMWR

end Sys2Proof.Machine
end

