-- ==== Sys2Proof/Machine/Ops.lean ====
section
/-! DEFINITION. The shared operations: events, line latches, capability calls, the transport (20_memory R51 to R53, R72,
R73), the framer's procedures (42_framer R125), error entry (60_exceptions R202 to R208), the end of a request (30_encoding
R93) and block reset (70_reset_and_hazards R230). -/

namespace Sys2Proof.Machine

/-- `Emit(e)`: append an event to `TRACE` (00_scope R10). -/
def State.emit (e : Event) (s : State) : State := { s with traceRev := e :: s.traceRev }

/-- The level a written bit gives a latch (10_state R33). -/
def levelOf (v : Bool) : Level := if v then .one else .zero

/-- The latch of a line. -/
def Lines.get (ls : Lines) : Line → Level
  | .cs => ls.cs
  | .sck => ls.sck
  | .sda => ls.sda
  | .rst => ls.rst
  | .bl => ls.bl

/-- Set the latch of a line. -/
def Lines.set (l : Line) (v : Level) (ls : Lines) : Lines :=
  match l with
  | .cs => { ls with cs := v }
  | .sck => { ls with sck := v }
  | .sda => { ls with sda := v }
  | .rst => { ls with rst := v }
  | .bl => { ls with bl := v }

/-- `L_<line> <- v` (20_memory R73). -/
def State.latch (l : Line) (v : Level) (s : State) : State := { s with lines := s.lines.set l v }

/-- The lines a transport build configures as outputs, in the order it does so (43_sequencer R132). -/
def configuredLines : Backend → List Line
  | .bitBang => [.cs, .sck, .sda, .rst, .bl]
  | .hwSerial => [.rst, .bl]

/-- The line has been configured as an output by the transport build (20_memory R73). -/
def State.configured (s : State) (l : Line) : Bool := s.tpOpen && (configuredLines s.backend).contains l

/-- The environment's answer to the next capability call (20_memory R70; log 5). -/
def State.callSucceeds (s : State) : Bool := s.answers.headD true

/-- The next answer has been given. -/
def State.takeAnswer (s : State) : State := { s with answers := s.answers.tail }

/-- What running a procedure ends in: its last statement has run, an error was raised in the state given (60_exceptions
R208), or a precondition the spec says always holds was broken. -/
inductive Run where
  | ok (s : State)
  | raised (e : Err) (s : State)
  | stopped (f : Fault)
  deriving DecidableEq, Repr

/-- A procedure of the pseudocode (00_scope R10). -/
abbrev Proc := State → Run

/-- Go on only after a statement that completed (00_scope R10: "no statement after it runs"). -/
def Run.andThen (r : Run) (k : Proc) : Run :=
  match r with
  | .ok s => k s
  | .raised e s => .raised e s
  | .stopped f => .stopped f

/-- Statements run strictly in the order written (00_scope R10). -/
def inOrder : List Proc → Proc
  | [], s => .ok s
  | p :: ps, s => (p s).andThen (inOrder ps)

/-- A statement that only writes registers. -/
def assign (f : State → State) : Proc := fun s => .ok (f s)

/-- `if not c then raise e`. -/
def require (c : State → Bool) (e : Err) : Proc := fun s => if c s then .ok s else .raised e s

/-- One capability call that touches no register of the block (20_memory R70): `open`, `init`, `setOutputMode`,
`sendWord`. -/
def capabilityCall : Proc := fun s =>
  if s.callSucceeds then .ok s.takeAnswer else .raised .transport s.takeAnswer

/-- `n` capability calls one after another. -/
def capabilityCalls : Nat → Proc
  | 0 => fun s => .ok s
  | n + 1 => fun s => (capabilityCall s).andThen (capabilityCalls n)

/-- `PinWrite(line, level)` (20_memory R73): on success the latch takes the level and the event is appended; on failure the
latch becomes X and nothing is appended. -/
def pinWrite (l : Line) (v : Bool) : Proc := fun s =>
  if s.configured l then
    if s.callSucceeds then .ok (((s.takeAnswer.latch l (levelOf v)).wire l v).emit (.pin l v))
    else .raised .transport (s.takeAnswer.latch l .x)
  else .stopped .lineNotConfigured

/-- `Delay(n)` (20_memory R72): `Wait(n)` is appended, and the controller has had `n` ms; `Delay(0)` appends nothing. -/
def delay (n : Nat) : Proc := fun s =>
  if n = 0 then .ok s else .ok (({ s with owed := s.owed - n }).emit (.wait n))

/-- The bit loop of `BbSend` (20_memory R53): `n` bits are still to be sent, bit `n - 1` first. -/
def bbBits (v : LinkWord) : Nat → Proc
  | 0 => fun s => .ok s
  | i + 1 =>
    inOrder [
      assign (fun s => { s with bitCnt := 8 - i }),
      pinWrite .sda (v.getLsbD i),
      pinWrite .sck false,
      pinWrite .sck true,
      bbBits v i]

/-- `BbSend(v)` (20_memory R53). -/
def bbSend (v : LinkWord) : Proc :=
  inOrder [
    pinWrite .cs false,
    bbBits v 9,
    pinWrite .cs true,
    assign (fun s => { s with bitCnt := 0 })]

/-- `HwSend(v)` (20_memory R52): one `sendWord` call; the serial hardware makes the line levels itself. -/
def hwSend (_v : LinkWord) : Proc := capabilityCall

/-- `LinkSend(w)` (20_memory R51): through the backend, then `W9(w)`; the accepted word reaches the controller. -/
def linkSend (w : LinkWord) : Proc := fun s =>
  if s.tpOpen then
    inOrder [
      (match s.backend with | .hwSerial => hwSend w | .bitBang => bbSend w),
      assign (fun t => (t.deliver w).emit (.w9 w))] s
  else .stopped .transportNotOpen

/-- `SendCmd(b)` (42_framer R125). -/
def sendCmd (b : Byte) : Proc :=
  inOrder [linkSend (commandWord b), assign (fun s => { s with lastCmd := some b })]

/-- `SendData(b)` (42_framer R125). -/
def sendData (b : Byte) : Proc := linkSend (dataWord b)

/-- Several data words one after another. -/
def sendBytes : List Byte → Proc
  | [] => fun s => .ok s
  | b :: bs => fun s => (sendData b s).andThen (sendBytes bs)

/-- The phase check of every sending request (60_exceptions R205). -/
def requireReady : Proc := require (fun s => s.phase == .ready) .notReady

/-- A response on `RSP`; `RES` is unspecified after it (30_encoding R93, U13): a free value. -/
def State.respond (code : BitVec 3) (s : State) : State :=
  { s with rsp := code, res := Config.freeRes s.draws, draws := s.draws + 1 }

/-- What a transport failure does to `PHASE` and `TP_OPEN` (60_exceptions R202, 43_sequencer R143): inside INIT the handle
is released; in `OFF` (the build failed) nothing changes; otherwise the phase becomes `FAILED` and the handle stays. -/
def State.failTransport (s : State) : State :=
  match s.phase with
  | .init => ({ s with phase := .failed, tpOpen := false }).emit .closed
  | .off => s
  | .ready | .failed | .closed => { s with phase := .failed }

/-- Error entry, the meaning of `raise e` (60_exceptions R202 to R205, R208): `ERR` and `RSP` take the code; for a transport
failure the phase changes as R202 says, the loop counters are back at 0 (10_state R30; log 15) and nothing is known of the
controller (U1, U2). -/
def State.enter (e : Err) (s : State) : State :=
  let t := ({ s with err := errCode e }).respond (errCode e)
  match e with
  | .transport => ({ t with pixCnt := 0, bitCnt := 0 }).forgetController.failTransport
  | .invalidParam | .unsupportedMode | .notReady => t

/-- The end of a request: OK, or error entry, once, for the request the host issued (60_exceptions R214). -/
def finish : Run → Host.Outcome State Fault Refusal
  | .ok s => .next (s.respond codeOK)
  | .raised e s => .next (s.enter e)
  | .stopped f => .fault f

/-- The end of a pure operation: OK and its result; no other state is touched (30_encoding R93, 10_state R43). -/
def answerPure (v : BitVec 24) (s : State) : Host.Outcome State Fault Refusal :=
  .next { s with rsp := codeOK, res := v }

/-- A request with a reserved `op` (30_encoding R94, 60_exceptions R207 (1)). -/
def reservedRequest (s : State) : Host.Outcome State Fault Refusal :=
  finish (.raised .invalidParam s)

/-- A command word put on the link by itself: the raw send of its code, gated by the phase like SEND_CMD (47_link_commands
R188, R190; log 11). -/
def rawCommand (code : Byte) (s : State) : Host.Outcome State Fault Refusal :=
  finish (inOrder [requireReady, sendCmd code] s)

/-- A data word put on the link by itself, gated by the phase like SEND_DATA (47_link_commands R189; log 11). -/
def rawData (d : Byte) (s : State) : Host.Outcome State Fault Refusal :=
  finish (inOrder [requireReady, sendData d] s)

/-- Block reset (70_reset_and_hazards R230, 10_state R41): the registers R41 gives a value take it, those it leaves
unspecified hold free values, and so do the response ports and the controller-side registers (R41, U12, U20, U31; log 6).
No capability call is made; the inputs and parameters stay. -/
def State.blockReset (s : State) : State :=
  { s with
    backend := Config.freeBackend s.draws
    ids := Config.freeIds s.draws
    colorMode := Config.freeColorMode s.draws
    orient := .deg0
    fg := Config.freeFg s.draws
    bg := Config.freeBg s.draws
    phase := .off
    stepNo := 0
    pixCnt := 0
    bitCnt := 0
    err := 0
    tpOpen := false
    lines := Lines.undriven
    lastCmd := none
    win := none
    traceRev := []
    rsp := Config.freeRsp s.draws
    res := Config.freeRes s.draws
    ctl := Controller.unknown s.draws
    draws := s.draws + 1 }

/-- The host lets `ms` milliseconds pass (70_reset_and_hazards R235: the host's own wait). No event: it is no act of the
block. -/
def State.pause (ms : Nat) (s : State) : State := { s with owed := s.owed - ms }

end Sys2Proof.Machine
end

