-- ==== Sys2Proof/Machine/Framer.lean ====
section
/-! DEFINITION. The framer's requests (42_framer R120 to R123). -/

namespace Sys2Proof.Machine

/-- FRAME_CMD b (42_framer R120). -/
def execFrameCmd (b : Byte) (s : State) : Host.Outcome State Fault Refusal :=
  answerPure (resOfWord (commandWord b)) s

/-- FRAME_DATA b (42_framer R121). -/
def execFrameData (b : Byte) (s : State) : Host.Outcome State Fault Refusal :=
  answerPure (resOfWord (dataWord b)) s

/-- SEND_CMD b (42_framer R122). -/
def execSendCmd (b : Byte) (s : State) : Host.Outcome State Fault Refusal :=
  finish (inOrder [requireReady, sendCmd b] s)

/-- SEND_DATA b (42_framer R123). -/
def execSendData (b : Byte) (s : State) : Host.Outcome State Fault Refusal :=
  finish (inOrder [requireReady, sendData b] s)

end Sys2Proof.Machine
end

