-- ==== Sys2Proof/Machine/LinkWords.lean ====
section
/-! DEFINITION. The link words as instructions of their own (00_scope R1, 47_link_commands R180 to R190): each is put on the
link as a raw send of its code, and the controller-side registers take the effect the spec states (`State.deliver`). Log 11. -/

namespace Sys2Proof.Machine

/-- SWRESET (47_link_commands R180). -/
def execSwreset (s : State) : Host.Outcome State Fault Refusal :=
  rawCommand codeSWRESET s

/-- SLPOUT (47_link_commands R181). -/
def execSlpout (s : State) : Host.Outcome State Fault Refusal :=
  rawCommand codeSLPOUT s

/-- DISPON (47_link_commands R182). -/
def execDispon (s : State) : Host.Outcome State Fault Refusal :=
  rawCommand codeDISPON s

/-- CASET (47_link_commands R183). -/
def execCaset (s : State) : Host.Outcome State Fault Refusal :=
  rawCommand codeCASET s

/-- RASET (47_link_commands R184). -/
def execRaset (s : State) : Host.Outcome State Fault Refusal :=
  rawCommand codeRASET s

/-- RAMWR (47_link_commands R185). -/
def execRamwr (s : State) : Host.Outcome State Fault Refusal :=
  rawCommand codeRAMWR s

/-- MADCTR (47_link_commands R186). -/
def execMadctr (s : State) : Host.Outcome State Fault Refusal :=
  rawCommand codeMADCTR s

/-- COLMOD (47_link_commands R187). -/
def execColmod (s : State) : Host.Outcome State Fault Refusal :=
  rawCommand codeCOLMOD s

/-- NVCTR (47_link_commands R188). -/
def execNvctr (s : State) : Host.Outcome State Fault Refusal :=
  rawCommand codeNVCTR s

/-- The data word (47_link_commands R189). -/
def execData (d : Byte) (s : State) : Host.Outcome State Fault Refusal :=
  rawData d s

end Sys2Proof.Machine
end

