-- ==== Sys2Proof/Machine/Packer.lean ====
section
/-! DEFINITION. The colour packer's requests (41_color_packer R110, R112). They answer OK in every phase and touch no state
but the response ports (D36). -/

namespace Sys2Proof.Machine

/-- PACK565 r, g, b (41_color_packer R110). -/
def execPack565 (r g b : Byte) (s : State) : Host.Outcome State Fault Refusal :=
  answerPure (resOfPacked (pack565 ⟨r, g, b⟩)) s

/-- UNPACK565 p (41_color_packer R112). -/
def execUnpack565 (p : Half) (s : State) : Host.Outcome State Fault Refusal :=
  answerPure (resOfColor (unpack565 p)) s

end Sys2Proof.Machine
end

