-- ==== Sys2Proof/Machine/Orient.lean ====
section
/-! DEFINITION. Orientation (46_orientation R170 to R173). -/

namespace Sys2Proof.Machine

/-- The two words of an orientation, then `ORIENT` (46_orientation R170, R171). -/
def sendOrientation (o : Orientation) : Proc :=
  inOrder [
    sendCmd codeMADCTR,
    (fun s => sendData (madctrByte s.params o) s),
    assign (fun s => { s with orient := o })]

/-- The parameter check of SET_ORIENTATION, then its words (46_orientation R170, R172). -/
def setOrientationBody (d : Half) : Proc :=
  match orientationOf d with
  | some o => sendOrientation o
  | none => fun s => .raised .invalidParam s

/-- SET_ORIENTATION d (46_orientation R170). -/
def execSetOrientation (d : Half) (s : State) : Host.Outcome State Fault Refusal :=
  finish (inOrder [requireReady, setOrientationBody d] s)

end Sys2Proof.Machine
end

