-- ==== Sys2Proof/Machine/Pixels.lean ====
section
/-! DEFINITION. Pixel streaming (45_pixel_streaming R160 to R163). -/

namespace Sys2Proof.Machine

/-- `StreamPixel(c)` (45_pixel_streaming R162, R163): two data words in 16-bit mode, three in 18-bit mode, the error in
12-bit mode. `COLORMODE` has no other value (10_state R42 (3)). -/
def streamPixel (c : Color) : Proc := fun s =>
  if s.colorMode = mode16 then sendBytes (pixel16 (pack565 c)) s
  else if s.colorMode = mode18 then sendBytes (pix666 s.params.pix18Align c) s
  else if s.colorMode = mode12 then .raised .unsupportedMode s
  else .stopped .colorModeOutsideEnumeration

/-- SEND_PIXEL r, g, b (45_pixel_streaming R160). -/
def execSendPixel (r g b : Byte) (s : State) : Host.Outcome State Fault Refusal :=
  finish (inOrder [requireReady, streamPixel ⟨r, g, b⟩] s)

/-- SEND_PIXEL_P16 p (45_pixel_streaming R161). -/
def execSendPixelP16 (p : Half) (s : State) : Host.Outcome State Fault Refusal :=
  finish (inOrder [
    requireReady,
    require (fun t => t.colorMode == mode16) .unsupportedMode,
    sendBytes (pixel16 p)] s)

end Sys2Proof.Machine
end

