-- ==== Sys2Proof/Machine/WindowClear.lean ====
section
/-! DEFINITION. Addressing window and clear (44_window_clear R150 to R155). -/

namespace Sys2Proof.Machine

/-- A coordinate: high byte forced to 0, then the value (30_encoding R85). -/
def coordinate (v : Byte) : List Byte := [0, v]

/-- The eleven words of SET_WINDOW and the shadow register (44_window_clear R150). -/
def sendWindow (v : Window) : Proc :=
  inOrder [
    sendCmd codeCASET, sendBytes (coordinate v.xs ++ coordinate v.xe),
    sendCmd codeRASET, sendBytes (coordinate v.ys ++ coordinate v.ye),
    sendCmd codeRAMWR,
    assign (fun s => { s with win := some v })]

/-- The body of SET_WINDOW, without the phase check (44_window_clear R150): all four values are checked before any word. -/
def setWindowBody (x y w h : Half) : Proc :=
  inOrder [
    require (fun _ => (windowSums x y w h).inRange) .invalidParam,
    sendWindow (windowSums x y w h).bytes]

/-- SET_WINDOW x, y, w, h (44_window_clear R150, R151). -/
def execSetWindow (x y w h : Half) (s : State) : Host.Outcome State Fault Refusal :=
  finish (inOrder [requireReady, setWindowBody x y w h] s)

/-- The pixel loop of CLEAR with `n` pixels still to be streamed (44_window_clear R152, 10_state R30). -/
def clearLoop (c : Color) : Nat → Proc
  | 0 => fun s => .ok s
  | n + 1 =>
    inOrder [
      assign (fun s => { s with pixCnt := Config.clearPixels - (n + 1) }),
      streamPixel c,
      clearLoop c n]

/-- The body of CLEAR, without the phase check (44_window_clear R152). -/
def clearBody (c : Color) : Proc :=
  inOrder [
    require (fun s => s.colorMode != mode12) .unsupportedMode,
    setWindowBody 0 0 (BitVec.ofNat 16 Config.panelW) (BitVec.ofNat 16 Config.panelH),
    clearLoop c Config.clearPixels,
    assign (fun s => { s with pixCnt := 0 })]

/-- CLEAR r, g, b (44_window_clear R152). -/
def execClear (r g b : Byte) (s : State) : Host.Outcome State Fault Refusal :=
  finish (inOrder [requireReady, clearBody ⟨r, g, b⟩] s)

end Sys2Proof.Machine
end

