-- ==== Sys2Proof/Machine/Sequencer.lean ====
section
/-! DEFINITION. The state-sequencer: INIT and its seven steps, CLOSE (43_sequencer R130 to R146). -/

namespace Sys2Proof.Machine

/-- Latching the configuration (43_sequencer R131). -/
def State.latchStraps (s : State) : State :=
  { s with
    backend := s.straps.backend
    ids := s.straps.ids
    colorMode := s.straps.colorMode
    fg := s.straps.fg
    bg := s.straps.bg
    orient := .deg0 }

/-- How many capability calls the transport build makes (43_sequencer R132, 60_exceptions R218): `init` and one
`setOutputMode` a line, and for `HWSERIAL` the `open` before them. -/
def buildCalls : Backend → Nat
  | .bitBang => 6
  | .hwSerial => 4

/-- The events of the transport build (43_sequencer R132). -/
def buildEvents (k : Backend) : List Event :=
  .opened k :: (configuredLines k).map .pinMode

/-- Append several events in order. -/
def State.emitAll (es : List Event) (s : State) : State := es.foldl (fun t e => t.emit e) s

/-- `BuildTransport()` (43_sequencer R132): whole, or failing with no event (D23). -/
def buildTransport : Proc := fun s =>
  inOrder [capabilityCalls (buildCalls s.backend), assign (State.emitAll (buildEvents s.backend))] s

/-- Step 1, power-reset (43_sequencer R133, R134). -/
def powerReset : Proc := fun s =>
  match s.backend with
  | .bitBang =>
    inOrder [
      pinWrite .cs false, pinWrite .rst false, delay Config.tPwrLowMs,
      pinWrite .cs true, pinWrite .rst true, delay Config.tPwrHighMs,
      pinWrite .sda false, pinWrite .sck true] s
  | .hwSerial =>
    inOrder [
      pinWrite .rst false, delay Config.tPwrLowMs,
      pinWrite .rst true, delay Config.tPwrHighMs] s

/-- `STEP <- n`, then the step's body (43_sequencer R130). -/
def atStep (n : Fin 8) (body : Proc) : Proc :=
  inOrder [assign (fun s => { s with stepNo := n }), body]

/-- The seven steps in their fixed order (43_sequencer R130, R133 to R140, 70_reset_and_hazards R234). -/
def initSteps : Proc :=
  inOrder [
    atStep 1 powerReset,
    atStep 2 (inOrder [sendCmd codeSWRESET, delay Config.tSwresetMs]),
    atStep 3 (inOrder [sendCmd codeCOLMOD, fun s => sendData s.colorMode s]),
    atStep 4 (inOrder [sendCmd codeSLPOUT, fun s => delay s.params.slpoutMs s]),
    atStep 5 (sendCmd codeDISPON),
    atStep 6 (fun s => sendOrientation s.orient s),
    atStep 7 (fun s => clearBody s.bg s)]

/-- The checks of INIT, in their order, before anything is sent (43_sequencer R130, 60_exceptions R207). -/
def initChecks : Proc :=
  inOrder [
    require (fun s => s.phase == .off) .notReady,
    require (fun s => colorModeKnown s.straps.colorMode) .invalidParam,
    require (fun s => s.straps.colorMode != mode12) .unsupportedMode]

/-- INIT (43_sequencer R130). -/
def execInit (s : State) : Host.Outcome State Fault Refusal :=
  finish (inOrder [
    initChecks,
    assign State.latchStraps,
    buildTransport,
    assign (fun t => { t with tpOpen := true, phase := .init }),
    initSteps,
    assign (fun t => { t with phase := .ready })] s)

/-- The release of the handle, if it is held, and the end of the instance (43_sequencer R144). -/
def State.release (s : State) : State :=
  if s.tpOpen then ({ s with tpOpen := false, phase := .closed }).emit .closed
  else { s with phase := .closed }

/-- CLOSE (43_sequencer R144). -/
def execClose (s : State) : Host.Outcome State Fault Refusal :=
  finish (inOrder [
    require (fun t => t.phase == .ready || t.phase == .failed) .notReady,
    assign State.release] s)

end Sys2Proof.Machine
end

