-- ==== Sys2Proof/Machine/Dispatch.lean ====
section
/-! DEFINITION. The dispatch: one arm per instruction (30_encoding R91, R83). -/

namespace Sys2Proof.Machine

/-- The meaning of an instruction. -/
def exec (i : Instr) (s : State) : Host.Outcome State Fault Refusal :=
  match i with
  | .init => Sys2Proof.Machine.execInit s
  | .setOrientation d => Sys2Proof.Machine.execSetOrientation d s
  | .setWindow x y w h => Sys2Proof.Machine.execSetWindow x y w h s
  | .clear r g b => Sys2Proof.Machine.execClear r g b s
  | .sendPixel r g b => Sys2Proof.Machine.execSendPixel r g b s
  | .sendPixelP16 p => Sys2Proof.Machine.execSendPixelP16 p s
  | .close => Sys2Proof.Machine.execClose s
  | .sendCmd b => Sys2Proof.Machine.execSendCmd b s
  | .sendData b => Sys2Proof.Machine.execSendData b s
  | .pack565 r g b => Sys2Proof.Machine.execPack565 r g b s
  | .unpack565 p => Sys2Proof.Machine.execUnpack565 p s
  | .frameCmd b => Sys2Proof.Machine.execFrameCmd b s
  | .frameData b => Sys2Proof.Machine.execFrameData b s
  | .swreset => Sys2Proof.Machine.execSwreset s
  | .slpout => Sys2Proof.Machine.execSlpout s
  | .dispon => Sys2Proof.Machine.execDispon s
  | .caset => Sys2Proof.Machine.execCaset s
  | .raset => Sys2Proof.Machine.execRaset s
  | .ramwr => Sys2Proof.Machine.execRamwr s
  | .madctr => Sys2Proof.Machine.execMadctr s
  | .colmod => Sys2Proof.Machine.execColmod s
  | .nvctr => Sys2Proof.Machine.execNvctr s
  | .data d => Sys2Proof.Machine.execData d s

end Sys2Proof.Machine
end

