-- ==== Sys2Proof/Machine/Serve.lean ====
section
/-! DEFINITION. Serving one act of the host (10_state R37, 30_encoding R94, R98, 70_reset_and_hazards R230, R233, R235). -/

namespace Sys2Proof.Machine

/-- Serve what is presented: the decoded instruction; a reserved `op` is answered with an error (30_encoding R94); a command
word outside the table is sent as it is (30_encoding R98, 47_link_commands R190). -/
def serveFrame (f : Frame) (s : State) : Host.Outcome State Fault Refusal :=
  match decode f with
  | .ok i => exec i s
  | .reservedOp _ => reservedRequest s
  | .unnamedCommand code => rawCommand code s

/-- Serve one act of the host. -/
def serve (a : HostAct) (s : State) : Host.Outcome State Fault Refusal :=
  match a with
  | .present f => serveFrame f s
  | .drive p => .next { s with straps := p }
  | .blockReset => .next s.blockReset
  | .pause ms => .next (s.pause ms)

/-- The host's act is taken off the list. -/
def State.withHost (s : State) (acts : List HostAct) : State := { s with host := acts }

/-- The host act that presents a raw table word (log 12, 28); a number too wide for its format is cut to it. -/
def presentRaw (nbits w : Nat) : HostAct :=
  if nbits ≤ 16 then .present (.link (BitVec.ofNat 9 w)) else .present (.req (BitVec.ofNat 68 w))

end Sys2Proof.Machine
end

