-- ==== Sys2Proof/Machine/Step.lean ====
section
/-! DEFINITION. One step: one act of the host, served to its end (00_scope R7, 10_state R37). -/

namespace Sys2Proof.Machine

/-- One step. With nothing presented the block is idle and its state stays (60_exceptions R208, R221; log 27). -/
def step (s : State) : Host.Outcome State Fault Refusal :=
  match s.host with
  | [] => .next s
  | a :: rest => serve a (s.withHost rest)

/-- `s` with the raw table word presented next (log 12). -/
def State.withFetchWord (s : State) (nbits w : Nat) : State :=
  s.withHost (presentRaw nbits w :: s.host)

end Sys2Proof.Machine
end

