-- ==== Sys2Proof/Machine/Trace.lean ====
section
/-! DEFINITION. Reading a trace: the word-level and pin-level views (00_scope R11), the events of one word (20_memory R53,
R56), how a receiver reconstructs a word from the pins (20_memory R54), and the commands in it (10_state R34). -/

namespace Sys2Proof.Machine

/-- The event is in the word-level view (00_scope R11): `W9` and `Wait`. -/
def Event.inWordView : Event → Bool
  | .w9 _ => true
  | .wait _ => true
  | .pin _ _ | .pinMode _ | .opened _ | .closed => false

/-- The event is in the pin-level view (00_scope R11): all but `W9`. -/
def Event.inPinView : Event → Bool
  | .w9 _ => false
  | .wait _ | .pin _ _ | .pinMode _ | .opened _ | .closed => true

/-- The word-level view of a trace (00_scope R11). -/
def wordView (es : List Event) : List Event := es.filter Event.inWordView

/-- The pin-level view of a trace (00_scope R11). -/
def pinView (es : List Event) : List Event := es.filter Event.inPinView

/-- The word of a `W9` event. -/
def Event.word : Event → Option LinkWord
  | .w9 w => some w
  | .wait _ | .pin _ _ | .pinMode _ | .opened _ | .closed => none

/-- The words of a trace, in order. -/
def wordsOf (es : List Event) : List LinkWord := es.filterMap Event.word

/-- The code of a command word. -/
def commandOf (w : LinkWord) : Option Byte := if w.dc then none else some w.payload

/-- The code of the last command word of a trace (10_state R34). -/
def lastCommand (es : List Event) : Option Byte := ((wordsOf es).filterMap commandOf).getLast?

/-- The three pin writes of one bit (20_memory R53). -/
def bitPins (b : Bool) : List Event := [.pin .sda b, .pin .sck false, .pin .sck true]

/-- The pin writes of the low `n` bits of a word, bit `n - 1` first (20_memory R53). -/
def bitsPins (v : LinkWord) : Nat → List Event
  | 0 => []
  | i + 1 => bitPins (v.getLsbD i) ++ bitsPins v i

/-- The 29 pin writes of a word on the bit-banged backend (20_memory R53). -/
def wordPins (v : LinkWord) : List Event := .pin .cs false :: (bitsPins v 9 ++ [.pin .cs true])

/-- The events one accepted word leaves in `TRACE` (20_memory R51, R56). -/
def wordEvents (k : Backend) (w : LinkWord) : List Event :=
  match k with
  | .hwSerial => [.w9 w]
  | .bitBang => wordPins w ++ [.w9 w]

/-- The events of several words. -/
def wordsEvents (k : Backend) (ws : List LinkWord) : List Event := ws.flatMap (wordEvents k)

/-- The line latches after a word has been accepted (20_memory R55). -/
def linesAfterWord (k : Backend) (w : LinkWord) (ls : Lines) : Lines :=
  match k with
  | .hwSerial => ls
  | .bitBang => { ls with cs := .one, sck := .one, sda := levelOf (w.getLsbD 0) }

/-- The line latches after several words. -/
def linesAfterWords (k : Backend) (ws : List LinkWord) (ls : Lines) : Lines :=
  ws.foldl (fun l w => linesAfterWord k w l) ls

/-- A receiver of the bit-banged lines (20_memory R54): the levels it sees and the bits it has taken, the first one first. -/
structure Receiver where
  cs : Bool
  sck : Bool
  sda : Bool
  bits : List Bool
  deriving DecidableEq, Repr

/-- One pin event at the receiver: it takes the level of `SDA` at a low-to-high transition of `SCK` while `CS` is low
(20_memory R54; log 22). -/
def Receiver.see (r : Receiver) : Event → Receiver
  | .pin .cs v => { r with cs := v }
  | .pin .sda v => { r with sda := v }
  | .pin .sck v =>
    if v && !r.sck && !r.cs then { r with sck := v, bits := r.bits ++ [r.sda] } else { r with sck := v }
  | .pin .rst _ | .pin .bl _ | .w9 _ | .wait _ | .pinMode _ | .opened _ | .closed => r

/-- The word of nine received bits, the first one bit 8 (20_memory R54). -/
def wordOfBits (bits : List Bool) : Option LinkWord :=
  if bits.length = 9 then some (BitVec.ofBoolListBE bits |>.setWidth 9) else none

/-- The word a receiver reconstructs from pin events, starting from the idle levels of 20_memory R55 with `SDA` at the
level given. -/
def decodePins (sda : Bool) (es : List Event) : Option LinkWord :=
  wordOfBits (es.foldl Receiver.see ⟨true, true, sda, []⟩).bits

end Sys2Proof.Machine
end

