-- ==== Sys2Proof/Safety.lean ====
section
/-! DEFINITION. The terms claims are stated in: the environment does not fail, what two states share, and the invariant
of the machine (10_state R42, 20_memory R55, 43_sequencer R145). -/

namespace Sys2Proof.Machine

/-- No capability call fails from here on (20_memory R70: one of the environment's choices). -/
def NoFailure (s : State) : Prop := ∀ a ∈ s.answers, a = true

/-- The block is ready and holds the handle (10_state R28, R32). -/
def Serving (s : State) : Prop := s.phase = .ready ∧ s.tpOpen = true

/-- `t` is `s` but for what sending words touches whatever the request (10_state R43: the lines and `TRACE`), the response
ports, and the model's own inputs and views: the answers used up, the controller side, the draw counter. -/
def SameButLink (s t : State) : Prop :=
  t = { s with
    lines := t.lines
    traceRev := t.traceRev
    bitCnt := t.bitCnt
    rsp := t.rsp
    res := t.res
    answers := t.answers
    ctl := t.ctl
    owed := t.owed
    draws := t.draws }

/-- `t` is `s` with the error `e` recorded and nothing else changed (60_exceptions R203 to R205); `RES` is unspecified
(30_encoding R93). -/
def RejectedWith (e : Err) (s t : State) : Prop :=
  t = { s with err := errCode e, rsp := errCode e, res := t.res, draws := t.draws }

/-- The request `i` is one of the sending requests (43_sequencer R145), or a word put on the link by itself. -/
def isSending : Instr → Bool
  | .setOrientation _ | .setWindow _ _ _ _ | .clear _ _ _ | .sendPixel _ _ _ | .sendPixelP16 _ => true
  | .sendCmd _ | .sendData _ => true
  | .swreset | .slpout | .dispon | .caset | .raset | .ramwr | .madctr | .colmod | .nvctr | .data _ => true
  | .init | .close | .pack565 _ _ _ | .unpack565 _ | .frameCmd _ | .frameData _ => false

/-- The four pure operations (10_state R43). -/
def isPure : Instr → Bool
  | .pack565 _ _ _ | .unpack565 _ | .frameCmd _ | .frameData _ => true
  | .init | .close | .setOrientation _ | .setWindow _ _ _ _ | .clear _ _ _ | .sendPixel _ _ _ | .sendPixelP16 _ => false
  | .sendCmd _ | .sendData _ => false
  | .swreset | .slpout | .dispon | .caset | .raset | .ramwr | .madctr | .colmod | .nvctr | .data _ => false

/-- The nine command words as instructions, with their codes (30_encoding R83). -/
def namedCommand : Instr → Option Byte
  | .swreset => some 0x01
  | .slpout => some 0x11
  | .dispon => some 0x29
  | .caset => some 0x2A
  | .raset => some 0x2B
  | .ramwr => some 0x2C
  | .madctr => some 0x36
  | .colmod => some 0x3A
  | .nvctr => some 0xB4
  | .init | .close | .setOrientation _ | .setWindow _ _ _ _ | .clear _ _ _ | .sendPixel _ _ _ | .sendPixelP16 _ => none
  | .sendCmd _ | .sendData _ | .data _ | .pack565 _ _ _ | .unpack565 _ | .frameCmd _ | .frameData _ => none

/-- The bits of `REQ` that spec/opcode_table.json gives a request: its `op` and its operand fields. Link words have none. -/
def usedBits : Instr → ReqWord
  | .init | .close => 0xF0000000000000000
  | .setOrientation _ | .sendPixelP16 _ | .unpack565 _ => 0xFFFFF000000000000
  | .setWindow _ _ _ _ => 0xFFFFFFFFFFFFFFFFF
  | .clear _ _ _ | .sendPixel _ _ _ | .pack565 _ _ _ => 0xF00FF00FF00FF0000
  | .sendCmd _ | .sendData _ | .frameCmd _ | .frameData _ => 0xF00FF000000000000
  | .swreset | .slpout | .dispon | .caset | .raset | .ramwr | .madctr | .colmod | .nvctr | .data _ => 0

/-- The eleven words of a window (44_window_clear R150): three commands, each value after a 0 byte. -/
def windowWords (v : Window) : List LinkWord :=
  [0x02A#9, 0x100#9, dataWord v.xs, 0x100#9, dataWord v.xe,
   0x02B#9, 0x100#9, dataWord v.ys, 0x100#9, dataWord v.ye, 0x02C#9]

/-- The words of one pixel in a colour mode (30_encoding R86, R87 with `PIX18_ALIGN`, log 20); none in 12-bit mode. -/
def pixelWords (a : Pix18Align) (mode : Byte) (c : Color) : List LinkWord :=
  if mode = 0x05 then
    [dataWord (c.r.extractLsb' 3 5 ++ c.g.extractLsb' 5 3), dataWord (c.g.extractLsb' 2 3 ++ c.b.extractLsb' 3 5)]
  else if mode = 0x06 then
    match a with
    | .left => [dataWord (c.r &&& 0xFC), dataWord (c.g &&& 0xFC), dataWord (c.b &&& 0xFC)]
    | .right => [dataWord (c.r >>> 2), dataWord (c.g >>> 2), dataWord (c.b >>> 2)]
  else []

/-- `n` pixels of one colour. -/
def pixelsWords (a : Pix18Align) (mode : Byte) (c : Color) : Nat → List LinkWord
  | 0 => []
  | n + 1 => pixelWords a mode c ++ pixelsWords a mode c n

/-- The words of CLEAR (44_window_clear R152): the full-panel window, then 20930 pixels. -/
def clearWords (a : Pix18Align) (mode : Byte) (c : Color) : List LinkWord :=
  windowWords ⟨2, 131, 1, 162⟩ ++ pixelsWords a mode c 20930

/-- The events of a successful transport build (43_sequencer R132). -/
def openEvents : Backend → List Event
  | .bitBang => [.opened .bitBang, .pinMode .cs, .pinMode .sck, .pinMode .sda, .pinMode .rst, .pinMode .bl]
  | .hwSerial => [.opened .hwSerial, .pinMode .rst, .pinMode .bl]

/-- The events of power-reset (43_sequencer R133, R134). -/
def powerResetEvents : Backend → List Event
  | .bitBang =>
    [.pin .cs false, .pin .rst false, .wait 200, .pin .cs true, .pin .rst true, .wait 200, .pin .sda false,
     .pin .sck true]
  | .hwSerial => [.pin .rst false, .wait 200, .pin .rst true, .wait 200]

/-- The `Wait` after SLPOUT: none when `T_SLPOUT_MS` is 0 (43_sequencer R137, 20_memory R72). -/
def sleepOutWait (ms : Nat) : List Event := if ms = 0 then [] else [.wait ms]

/-- The events of each step of INIT, in order (43_sequencer R133 to R140). -/
def initStepEvents (k : Backend) (mode : Byte) (bg : Color) (p : Params) : List (List Event) :=
  [powerResetEvents k,
   wordEvents k 0x001#9 ++ [.wait 200],
   wordsEvents k [0x03A#9, dataWord mode],
   wordEvents k 0x011#9 ++ sleepOutWait p.slpoutMs,
   wordEvents k 0x029#9,
   wordsEvents k [0x036#9, 0x100#9],
   wordsEvents k (clearWords p.pix18Align mode bg)]

/-- The whole trace of a successful INIT (43_sequencer R132 to R140, R146). -/
def initEvents (k : Backend) (mode : Byte) (bg : Color) (p : Params) : List Event :=
  openEvents k ++ (initStepEvents k mode bg p).flatten

/-- The request put exactly the words `ws` on the link, answered OK, and changed nothing of `s` but what sending words
touches: the lines, and `BITCNT`, which is 0 after a bit-banged word (20_memory R51, R53, R55, 10_state R43). -/
structure Sent (ws : List LinkWord) (s t : State) : Prop where
  frame : SameButLink s t
  answered : t.rsp = 0
  trace : t.trace = s.trace ++ wordsEvents s.backend ws
  lines : t.lines = linesAfterWords s.backend ws s.lines
  bitCnt : t.bitCnt = if s.backend = .bitBang ∧ ws ≠ [] then 0 else s.bitCnt

/-- The rows of the table of 43_sequencer R145 for a request `i`: phase before, phase after, response. -/
def phaseRow (i : Instr) (p q : Phase) (rsp : BitVec 3) : Bool :=
  if isPure i then q == p && rsp == 0
  else if isSending i then
    match p with
    | .ready => (q == .ready && (rsp == 0 || rsp == 2 || rsp == 3)) || (q == .failed && rsp == 1)
    | .off | .init | .failed | .closed => q == p && rsp == 4
  else if i == .init then
    match p with
    | .off => (q == .off && (rsp == 1 || rsp == 2 || rsp == 3)) || (q == .ready && rsp == 0) || (q == .failed && rsp == 1)
    | .init | .ready | .failed | .closed => q == p && rsp == 4
  else
    match p with
    | .ready | .failed => q == .closed && rsp == 0
    | .off | .init | .closed => q == p && rsp == 4

/-- The invariant of the machine between steps. -/
structure Inv (s : State) : Prop where
  /-- `PHASE` = `INIT` is never visible to the host (43_sequencer R145). -/
  notMidInit : s.phase ≠ .init
  /-- 10_state R42 (5), first half. -/
  openWhenReady : s.phase = .ready → s.tpOpen = true
  /-- 10_state R42 (5), second half. -/
  closedOutside : s.phase = .off ∨ s.phase = .closed → s.tpOpen = false
  /-- 10_state R42 (3): with D10 the mode is 16-bit or 18-bit once INIT has latched it. -/
  modeLatched : s.phase ≠ .off → s.colorMode = mode16 ∨ s.colorMode = mode18
  /-- 10_state R30: both counters are 0 between requests. -/
  countersIdle : s.pixCnt = 0 ∧ s.bitCnt = 0
  /-- 10_state R33: `L_BL` is X always. -/
  backlightUndriven : s.lines.bl = .x
  /-- 10_state R33: with `HWSERIAL` only `L_RST` is ever written. -/
  serialLinesUndriven : s.phase ≠ .off → s.backend = .hwSerial → s.lines.cs = .x ∧ s.lines.sck = .x ∧ s.lines.sda = .x
  /-- 10_state R41, 43_sequencer R145: in `OFF` nothing has been sent or driven. -/
  offUntouched : s.phase = .off →
    s.stepNo = 0 ∧ s.lines = Lines.undriven ∧ s.lastCmd = none ∧ s.win = none ∧ s.traceRev = []
  /-- 10_state R29, 20_memory R55: in `READY` the sequence is complete and the reset line is released. -/
  readyDone : s.phase = .ready → s.stepNo = 7 ∧ s.lines.rst = .one ∧ s.win.isSome
  /-- 20_memory R55: the idle framing state of the bit-banged lines between words. -/
  readyIdle : s.phase = .ready → s.backend = .bitBang →
    s.lines.cs = .one ∧ s.lines.sck = .one ∧
      ∃ w, (wordsOf s.trace).getLast? = some w ∧ s.lines.sda = levelOf (w.getLsbD 0)
  /-- 10_state R34: `LASTCMD` is the last command word in `TRACE`. -/
  lastCmdMirrors : s.lastCmd = lastCommand s.trace
  /-- 60_exceptions R201: codes 5, 6 and 7 are never produced. -/
  errDefined : s.err.toNat ≤ 4

end Sys2Proof.Machine
end

