-- ==== Sys2Proof/Certificates/Slice0/Obligations.lean ====
section
/-! DEFINITION. The statements for the provers. Each docstring names the rule or the model's own choice it formalises. Three
choices run through them: "no failure ahead" speaks of the list of the environment's answers (log 5); a statement over every
instruction takes in the ten link words presented by themselves (log 11); `RES` is a free value after every request that is
not pure, drawn at the draw counter (log 7, log 24). -/

open Sys2Proof Sys2Proof.Machine

/-! ### Encoding -/

/-- Every instruction, with every operand at every value, decodes from its encoding (30_encoding sections 1 and 3). -/
def Obligations.DecodeEncodeRoundTrip : Prop :=
  ∀ i : Instr, i.wf = true → decode (encode i) = .ok i

/-- A link word that decodes to an instruction is that instruction's encoding (30_encoding sections 1 and 4). -/
def Obligations.LinkWordHasOneMeaning : Prop :=
  ∀ (w : LinkWord) (i : Instr), decode (.link w) = .ok i → encode i = .link w

/-- 30_encoding R92: a request decodes by its `op` and operand bits alone, and the operands are exactly those bits. -/
def Obligations.RequestOperandsAreTheirFields : Prop :=
  ∀ (w : ReqWord) (i : Instr), decode (.req w) = .ok i →
    encode i = .req (w &&& usedBits i) ∧
    ∀ w' : ReqWord, w' &&& usedBits i = w &&& usedBits i → decode (.req w') = .ok i

/-- The two framings (30_encoding R81, R82): a command word has the value of its code and bit 8 clear, a data word the
value 0x100 + byte and bit 8 set; the payload is the byte, and every 9-bit word is one of the two. -/
def Obligations.FramingFixesBitEight : Prop :=
  (∀ b : Byte, (commandWord b).toNat = b.toNat ∧ (commandWord b).getLsbD 8 = false ∧ (commandWord b).extractLsb' 0 8 = b) ∧
  (∀ b : Byte, (dataWord b).toNat = 0x100 + b.toNat ∧ (dataWord b).getLsbD 8 = true ∧ (dataWord b).extractLsb' 0 8 = b) ∧
  ∀ w : LinkWord, w = commandWord (w.extractLsb' 0 8) ∨ w = dataWord (w.extractLsb' 0 8)

/-- A few words written out from the spec's encodings decode to the instructions they stand for (30_encoding R83, R91). -/
def Obligations.WrittenOutWordsDecode : Prop :=
  decode (.req 0x10000000000000000) = .ok .init ∧
  decode (.req 0x2005A000000000000) = .ok (.setOrientation 90) ∧
  decode (.req 0x3000A000500140014) = .ok (.setWindow 10 5 20 20) ∧
  decode (.req 0x40012003400560000) = .ok (.clear 0x12 0x34 0x56) ∧
  decode (.req 0x6F800000000000000) = .ok (.sendPixelP16 0xF800) ∧
  decode (.req 0x901FF000000000000) = .ok (.sendData 0xFF) ∧
  decode (.req 0xAFF12AB34CD560000) = .ok (.pack565 0x12 0x34 0x56) ∧
  decode (.link 0b000101010) = .ok .caset ∧
  decode (.link 0b010110100) = .ok .nvctr ∧
  decode (.link 0b111111111) = .ok (.data 0xFF)

/-! ### The step -/

/-- A step serves what is presented: it runs the decoded instruction to its end (00_scope R7 (2), 30_encoding R98). That the
host is a list of acts, one of which each step takes off, is the model's choice (log 12), and so is that a link word presented
by itself is executed (log 11). -/
def Obligations.StepRunsDecodedInstruction : Prop :=
  ∀ (s : State) (f : Frame) (i : Instr) (rest : List HostAct),
    s.host = .present f :: rest → decode f = .ok i → step s = exec i { s with host := rest }

/-- 30_encoding R94 for requests: a reserved `op` is rejected with `E_INVALID_PARAM`, sends nothing and changes no register
but `ERR` (and the response ports). The list of the host's acts is log 12. -/
def Obligations.ReservedOpIsRejected : Prop :=
  ∀ (s : State) (w : ReqWord) (rest : List HostAct), s.host = .present (.req w) :: rest →
    (w.extractLsb' 64 4 = 0x0#4 ∨ w.extractLsb' 64 4 = 0xE#4 ∨ w.extractLsb' 64 4 = 0xF#4) →
    ∃ t, step s = .next t ∧ RejectedWith .invalidParam { s with host := rest } t

/-- A command word outside the table is sent as it is and recorded in `LASTCMD` (47_link_commands R190); that it may be
presented by itself, gated by the phase, is the model's choice (log 11), and so is the list of the host's acts (log 12). -/
def Obligations.UnnamedCommandWordIsSent : Prop :=
  ∀ (s : State) (code : Byte) (rest : List HostAct), s.host = .present (.link (commandWord code)) :: rest →
    decode (.link (commandWord code)) = .unnamedCommand code → Serving s → NoFailure s →
    ∃ t, step s = .next t ∧ Sent [commandWord code] { s with host := rest, lastCmd := some code } t

/-- With nothing presented the state stays (log 27); driving the straps changes only the straps, and the host's waiting only
the quiet time still owed (log 10, 12). -/
def Obligations.HostActsTouchOnlyTheirInputs : Prop :=
  (∀ s : State, s.host = [] → step s = .next s) ∧
  (∀ (s : State) (p : Straps) (rest : List HostAct), s.host = .drive p :: rest →
    step s = .next { s with host := rest, straps := p }) ∧
  ∀ (s : State) (ms : Nat) (rest : List HostAct), s.host = .pause ms :: rest →
    step s = .next { s with host := rest, owed := s.owed - ms }

/-! ### The pure operations -/

/-- PACK565 in every state: the request is decoded from `op` 0xA and the low bytes of `a0`, `a1`, `a2`; `RES` is
`{r[7:3], g[7:2], b[7:3]}`, which is the formula of 41_color_packer R110 over the natural numbers, and nothing else
changes; every 16-bit value is the packed value of some colour. The field view and the last clause are R111, which the spec
marks as its own derivation. -/
def Obligations.Pack565Result : Prop :=
  (∀ (s : State) (r g b : Byte), exec (.pack565 r g b) s = .next { s with
    rsp := 0
    res := 0#8 ++ (r.extractLsb' 3 5 ++ g.extractLsb' 2 6 ++ b.extractLsb' 3 5) }) ∧
  (∀ r g b : Byte, (r.extractLsb' 3 5 ++ g.extractLsb' 2 6 ++ b.extractLsb' 3 5).toNat =
    ((r.toNat &&& 0xF8) <<< 8) ||| ((g.toNat &&& 0xFC) <<< 3) ||| (b.toNat >>> 3)) ∧
  (∀ p : Half, ∃ r g b : Byte, ∀ s : State, exec (.pack565 r g b) s = .next { s with rsp := 0, res := 0#8 ++ p }) ∧
  ∀ (a0 a1 a2 a3 : Half), decode (.req (0xA#4 ++ a0 ++ a1 ++ a2 ++ a3)) =
    .ok (.pack565 (a0.extractLsb' 0 8) (a1.extractLsb' 0 8) (a2.extractLsb' 0 8))

/-- UNPACK565 in every state: the request is decoded from `op` 0xB and `a0`; each channel is its field left-aligned with
zero fill, on `RES[23:16]`, `RES[15:8]`, `RES[7:0]`, and nothing else changes (41_color_packer R112). -/
def Obligations.Unpack565Result : Prop :=
  (∀ (s : State) (p : Half), exec (.unpack565 p) s = .next { s with
    rsp := 0
    res := BitVec.ofNat 24
      ((p.toNat / 2048 * 8) * 65536 + (p.toNat / 32 % 64 * 4) * 256 + (p.toNat % 32 * 8)) }) ∧
  ∀ (a0 a1 a2 a3 : Half), decode (.req (0xB#4 ++ a0 ++ a1 ++ a2 ++ a3)) = .ok (.unpack565 a0)

/-- The four laws of 41_color_packer R113, which the spec marks as derived from R110 to R112, over the machine's requests. -/
def Obligations.PackUnpackLaws : Prop :=
  (∀ r g b : Byte, ∃ v, ∀ s : State, exec (.pack565 r g b) s = .next { s with rsp := 0, res := v }) ∧
  (∀ (p : Half) (s t : State), exec (.unpack565 p) s = .next t →
    exec (.pack565 (t.res.extractLsb' 16 8) (t.res.extractLsb' 8 8) (t.res.extractLsb' 0 8)) t =
      .next { t with res := p.setWidth 24 }) ∧
  (∀ (r g b : Byte) (s t : State), exec (.pack565 r g b) s = .next t →
    exec (.unpack565 (t.res.extractLsb' 0 16)) t =
      .next { t with res := (r &&& 0xF8) ++ (g &&& 0xFC) ++ (b &&& 0xF8) }) ∧
  ∀ (r g b : Byte) (s : State), exec (.pack565 r g b) s = exec (.pack565 (r &&& 0xF8) (g &&& 0xFC) (b &&& 0xF8)) s

/-- FRAME_CMD in every state: `RES` is the 9-bit word with bit 8 = 0 and low 8 bits = b, nothing else changes, and the
request is decoded from `op` 0xC and the low byte of `a0` (42_framer R120). -/
def Obligations.FrameCmdResult : Prop :=
  (∀ (s : State) (b : Byte), exec (.frameCmd b) s = .next { s with rsp := 0, res := BitVec.ofNat 24 b.toNat }) ∧
  ∀ (a0 a1 a2 a3 : Half), decode (.req (0xC#4 ++ a0 ++ a1 ++ a2 ++ a3)) = .ok (.frameCmd (a0.extractLsb' 0 8))

/-- FRAME_DATA in every state: `RES` is `0x100 + b`, nothing else changes, and the request is decoded from `op` 0xD and the
low byte of `a0` (42_framer R121). -/
def Obligations.FrameDataResult : Prop :=
  (∀ (s : State) (b : Byte), exec (.frameData b) s = .next { s with rsp := 0, res := BitVec.ofNat 24 (0x100 + b.toNat) }) ∧
  ∀ (a0 a1 a2 a3 : Half), decode (.req (0xD#4 ++ a0 ++ a1 ++ a2 ++ a3)) = .ok (.frameData (a0.extractLsb' 0 8))

/-! ### The transport -/

/-- The 29 pin writes of a word on the bit-banged backend, sampled at each low-to-high clock transition while chip-select is
low, give the word back, whatever level the data line was left at (20_memory R53, R54, R56; the sampling edge is presumed,
log 22). -/
def Obligations.WordPinsDecodeBack : Prop :=
  ∀ (v : LinkWord) (sda : Bool), (wordPins v).length = 29 ∧ decodePins sda (wordPins v) = some v

/-- `LinkSend` when no call fails: the word's events are appended, the lines end in the idle framing state, and of the
block's registers only the line latches, `BITCNT` and `TRACE` change (20_memory R51, R52, R53, R55). -/
def Obligations.LinkSendCompletes : Prop :=
  ∀ (w : LinkWord) (s : State), s.tpOpen = true → NoFailure s → ∃ t, linkSend w s = .ok t ∧
    t.trace = s.trace ++ wordEvents s.backend w ∧
    t = { s with
      lines := linesAfterWord s.backend w s.lines
      bitCnt := if s.backend = .bitBang then 0 else s.bitCnt
      traceRev := t.traceRev, answers := t.answers, ctl := t.ctl, owed := t.owed, draws := t.draws }

/-- A pin write that fails inside a word (20_memory R70, R73): the pin events before it stay, its own event and the word's
`W9` are not appended, and the latch of its line becomes X. -/
def Obligations.FailedPinWriteCutsWordShort : Prop :=
  ∀ (w : LinkWord) (s : State) (k : Nat) (rest : List Bool), s.tpOpen = true → s.backend = .bitBang → k < 29 →
    s.answers = List.replicate k true ++ false :: rest →
    ∃ t, linkSend w s = .raised .transport t ∧ t.trace = s.trace ++ (wordPins w).take k ∧ t.answers = rest ∧
      (∀ l v, (wordPins w)[k]? = some (.pin l v) → t.lines.get l = .x) ∧
      t = { s with
        lines := t.lines, bitCnt := t.bitCnt, traceRev := t.traceRev, answers := t.answers, ctl := t.ctl
        owed := t.owed, draws := t.draws }

/-- A `sendWord` that fails (20_memory R70): nothing is appended and no register changes. -/
def Obligations.FailedSendWordLeavesNothing : Prop :=
  ∀ (w : LinkWord) (s : State) (rest : List Bool), s.tpOpen = true → s.backend = .hwSerial →
    s.answers = false :: rest → linkSend w s = .raised .transport { s with answers := rest }

/-- `PinWrite` on any configured line (20_memory R73): success sets the latch and appends the event, failure appends nothing
and leaves the latch X. A line other than `RST` touches nothing else. A write of `RST` also reaches the controller: low resets
it by wire (70_reset_and_hazards R232 (2)) to registers the spec does not give, which are free values, with no command received,
and after either level it is owed 200 ms (R235); how the model holds this is its own choice (log 8, log 10, log 16, log 24). -/
def Obligations.PinWriteSetsLatchOrLeavesX : Prop :=
  ∀ (s : State) (l : Line) (v : Bool), s.tpOpen = true → (s.backend = .bitBang ∨ l = .rst ∨ l = .bl) →
    (s.callSucceeds = true → ∃ t, pinWrite l v s = .ok t ∧ t.lines = s.lines.set l (levelOf v) ∧
      t.trace = s.trace ++ [.pin l v] ∧
      t = { s with
        lines := t.lines, traceRev := t.traceRev, answers := s.answers.tail, ctl := t.ctl, owed := t.owed
        draws := t.draws } ∧
      (l ≠ .rst → t.ctl = s.ctl ∧ t.owed = s.owed ∧ t.draws = s.draws) ∧
      (l = .rst → v = false →
        t.ctl = { Controller.unknown s.draws with cmd := none, args := [] } ∧ t.owed = max s.owed 200) ∧
      (l = .rst → v = true → t.ctl = s.ctl ∧ t.owed = max s.owed 200)) ∧
    (s.callSucceeds = false →
      pinWrite l v s = .raised .transport { s with lines := s.lines.set l .x, answers := s.answers.tail })

/-- `Delay` (20_memory R72): it cannot fail, appends `Wait(n)`, and `Delay(0)` does nothing. The quiet time it counts down is
the model's own field (log 10). -/
def Obligations.DelayAppendsWait : Prop :=
  ∀ s : State, delay 0 s = .ok s ∧
    ∀ n, n ≠ 0 → ∃ t, delay n s = .ok t ∧ t.trace = s.trace ++ [.wait n] ∧
      t = { s with traceRev := t.traceRev, owed := s.owed - n }

/-! ### The sending requests -/

/-- SEND_CMD completes in `READY` for every byte: one command word, `LASTCMD` (42_framer R122, R125). -/
def Obligations.SendCmdCompletes : Prop :=
  ∀ (s : State) (b : Byte), Serving s → NoFailure s →
    ∃ t, exec (.sendCmd b) s = .next t ∧ Sent [0#1 ++ b] { s with lastCmd := some b } t

/-- SEND_DATA completes in `READY` for every byte: one data word, no register (42_framer R123, R125). -/
def Obligations.SendDataCompletes : Prop :=
  ∀ (s : State) (b : Byte), Serving s → NoFailure s →
    ∃ t, exec (.sendData b) s = .next t ∧ Sent [1#1 ++ b] s t

/-- SEND_PIXEL completes in `READY`: two data words in 16-bit mode, three in 18-bit mode, whatever `LASTCMD` is; in 12-bit
mode it answers `E_UNSUPPORTED_MODE` (45_pixel_streaming R160, R162, R163, R165; the 18-bit layout is presumed, log 20). -/
def Obligations.SendPixelCompletes : Prop :=
  ∀ (s : State) (r g b : Byte), Serving s →
    ((s.colorMode = 0x05 ∨ s.colorMode = 0x06) → NoFailure s →
      ∃ t, exec (.sendPixel r g b) s = .next t ∧ Sent (pixelWords s.params.pix18Align s.colorMode ⟨r, g, b⟩) s t) ∧
    (s.colorMode = 0x03 → ∃ t, exec (.sendPixel r g b) s = .next t ∧ RejectedWith .unsupportedMode s t)

/-- SEND_PIXEL_P16 in `READY`: in 16-bit mode the high byte then the low byte, for every 16-bit value; in any other mode
`E_UNSUPPORTED_MODE` before anything is sent (45_pixel_streaming R161). -/
def Obligations.SendPixelP16Completes : Prop :=
  ∀ (s : State) (p : Half), Serving s →
    (s.colorMode = 0x05 → NoFailure s →
      ∃ t, exec (.sendPixelP16 p) s = .next t ∧ Sent [1#1 ++ p.extractLsb' 8 8, 1#1 ++ p.extractLsb' 0 8] s t) ∧
    (s.colorMode ≠ 0x05 → ∃ t, exec (.sendPixelP16 p) s = .next t ∧ RejectedWith .unsupportedMode s t)

/-- SEND_PIXEL_P16 p and SEND_PIXEL of the channels of UNPACK565 p do the same in 16-bit mode (45_pixel_streaming R161,
41_color_packer R113 law 2). -/
def Obligations.PackedPixelAgreesWithUnpackedPixel : Prop :=
  ∀ (s u : State) (p : Half), s.phase = .ready → s.colorMode = 0x05 → exec (.unpack565 p) s = .next u →
    exec (.sendPixelP16 p) s =
      exec (.sendPixel (u.res.extractLsb' 16 8) (u.res.extractLsb' 8 8) (u.res.extractLsb' 0 8)) s

/-- SET_WINDOW in `READY` with all four values in range: the eleven words, `LASTCMD` and `WIN`; the four values are the exact
sums, so an end may lie below its start and beyond the panel (44_window_clear R150, R153, R154). -/
def Obligations.SetWindowCompletes : Prop :=
  ∀ (s : State) (x y w h : Half) (v : Window), Serving s → NoFailure s →
    v.xs.toNat = x.toNat + 2 → v.xe.toNat = x.toNat + w.toNat + 1 →
    v.ys.toNat = y.toNat + 1 → v.ye.toNat = y.toNat + h.toNat + 1 →
    ∃ t, exec (.setWindow x y w h) s = .next t ∧
      Sent (windowWords v) { s with lastCmd := some 0x2C, win := some v } t

/-- The range check of 44_window_clear R151: a sum above 255, computed without wrap-around, rejects the request before any
word; the accepted operands are exactly those with `x <= 253`, `x + w <= 254`, `y + h <= 254`. -/
def Obligations.SetWindowRejectsOutOfRange : Prop :=
  (∀ (s : State) (x y w h : Half), s.phase = .ready →
    (255 < x.toNat + 2 ∨ 255 < x.toNat + w.toNat + 1 ∨ 255 < y.toNat + 1 ∨ 255 < y.toNat + h.toNat + 1) →
    ∃ t, exec (.setWindow x y w h) s = .next t ∧ RejectedWith .invalidParam s t) ∧
  ∀ (s : State) (x y w h : Half), Serving s → NoFailure s →
    ((∃ t, exec (.setWindow x y w h) s = .next t ∧ t.rsp = 0) ↔
      x.toNat + w.toNat ≤ 254 ∧ x.toNat ≤ 253 ∧ y.toNat + h.toNat ≤ 254)

/-- CLEAR in `READY`: the full-panel window, then 20930 pixels; `BG` is not written and `PIXCNT` is back at 0; in 12-bit mode
`E_UNSUPPORTED_MODE` before anything is sent (44_window_clear R152; the 18-bit layout is presumed, log 20). -/
def Obligations.ClearCompletes : Prop :=
  ∀ (s : State) (r g b : Byte), Serving s →
    ((s.colorMode = 0x05 ∨ s.colorMode = 0x06) → NoFailure s →
      ∃ t, exec (.clear r g b) s = .next t ∧
        Sent (clearWords s.params.pix18Align s.colorMode ⟨r, g, b⟩)
          { s with lastCmd := some 0x2C, win := some ⟨2, 131, 1, 162⟩, pixCnt := 0 } t) ∧
    (s.colorMode = 0x03 → ∃ t, exec (.clear r g b) s = .next t ∧ RejectedWith .unsupportedMode s t)

/-- SET_ORIENTATION in `READY`: MADCTR, then the byte of the table over the open masks, then `ORIENT` (46_orientation R170,
R171). -/
def Obligations.SetOrientationCompletes : Prop :=
  ∀ (s : State) (d : Half) (o : Orientation) (byte : Byte), Serving s → NoFailure s →
    (d = 0 ∧ o = .deg0 ∧ byte = 0x00) ∨
    (d = 90 ∧ o = .deg90 ∧ byte = s.params.madctrMV ||| s.params.madctrMX) ∨
    (d = 180 ∧ o = .deg180 ∧ byte = s.params.madctrMY ||| s.params.madctrMX) ∨
    (d = 270 ∧ o = .deg270 ∧ byte = s.params.madctrMV ||| s.params.madctrMY) →
    ∃ t, exec (.setOrientation d) s = .next t ∧
      Sent [0x036, 1#1 ++ byte] { s with lastCmd := some 0x36, orient := o } t

/-- An orientation outside the four is rejected with nothing sent (46_orientation R172). -/
def Obligations.SetOrientationRejectsOthers : Prop :=
  ∀ (s : State) (d : Half), s.phase = .ready → d ≠ 0 → d ≠ 90 → d ≠ 180 → d ≠ 270 →
    ∃ t, exec (.setOrientation d) s = .next t ∧ RejectedWith .invalidParam s t

/-- The four data bytes of 46_orientation R171 are pairwise different for any three distinct single-bit masks (R173). -/
def Obligations.OrientationBytesDiffer : Prop :=
  ∀ (p : Params) (o o' : Orientation), p.wf = true → madctrByte p o = madctrByte p o' → o = o'

/-- Each of the nine command words (SWRESET, SLPOUT, DISPON, CASET, RASET, RAMWR, MADCTR, COLMOD, NVCTR: the constructors
`swreset`, `slpout`, `dispon`, `caset`, `raset`, `ramwr`, `madctr`, `colmod`, `nvctr`), put on the link in `READY`, is the
raw send of its code (47_link_commands R180 to R188; that it may be presented by itself is the model's choice, log 11). -/
def Obligations.CommandWordsComplete : Prop :=
  ∀ (i : Instr) (code : Byte) (s : State), namedCommand i = some code → Serving s → NoFailure s →
    ∃ t, exec i s = .next t ∧ Sent [0#1 ++ code] { s with lastCmd := some code } t

/-- The data word, put on the link in `READY`, sends its byte and changes no register (47_link_commands R189; log 11). -/
def Obligations.DataWordCompletes : Prop :=
  ∀ (d : Byte) (s : State), Serving s → NoFailure s → ∃ t, exec (.data d) s = .next t ∧ Sent [1#1 ++ d] s t

/-- The word counts of 44_window_clear R155 and 43_sequencer R146, which the spec marks as derived: first of the word lists the
completion statements use, then of the words the requests append to the trace when no call fails. -/
def Obligations.WordCounts : Prop :=
  (∀ v, (windowWords v).length = 11) ∧
  (∀ a c, (clearWords a 0x05 c).length = 41871 ∧ (clearWords a 0x06 c).length = 62801) ∧
  (∀ k c p, (wordsOf (initEvents k 0x05 c p)).length = 41878 ∧ (wordsOf (initEvents k 0x06 c p)).length = 62808) ∧
  (∀ (s : State) (x y w h : Half), Serving s → NoFailure s →
    x.toNat + w.toNat ≤ 254 → x.toNat ≤ 253 → y.toNat + h.toNat ≤ 254 →
    ∃ t, exec (.setWindow x y w h) s = .next t ∧ (wordsOf t.trace).length = (wordsOf s.trace).length + 11) ∧
  (∀ (s : State) (r g b : Byte), Serving s → NoFailure s →
    (s.colorMode = 0x05 →
      ∃ t, exec (.clear r g b) s = .next t ∧ (wordsOf t.trace).length = (wordsOf s.trace).length + 41871) ∧
    (s.colorMode = 0x06 →
      ∃ t, exec (.clear r g b) s = .next t ∧ (wordsOf t.trace).length = (wordsOf s.trace).length + 62801) ∧
    (s.colorMode = 0x03 → ∃ t, exec (.clear r g b) s = .next t ∧ t.trace = s.trace)) ∧
  ∀ s : State, s.phase = .off → NoFailure s →
    (s.straps.colorMode = 0x05 →
      ∃ t, exec .init s = .next t ∧ (wordsOf t.trace).length = (wordsOf s.trace).length + 41878) ∧
    (s.straps.colorMode = 0x06 →
      ∃ t, exec .init s = .next t ∧ (wordsOf t.trace).length = (wordsOf s.trace).length + 62808)

/-! ### INIT and CLOSE -/

/-- INIT from `OFF` with a 16-bit or 18-bit strap and no failure: the whole trace, the latched registers, `READY`, the idle
levels of the bit-banged lines with `SDA` at bit 0 of the last word (20_memory R55)
(43_sequencer R130 to R141, R146; the order inside power-reset's pairs and the build is log 14, the 18-bit layout log 20). -/
def Obligations.InitCompletes : Prop :=
  ∀ s : State, s.phase = .off → (s.straps.colorMode = 0x05 ∨ s.straps.colorMode = 0x06) → NoFailure s →
    ∃ t, exec .init s = .next t ∧
      t.trace = s.trace ++ initEvents s.straps.backend s.straps.colorMode s.straps.bg s.params ∧
      t.lines.rst = .one ∧ t.lines.bl = s.lines.bl ∧
      (s.straps.backend = .bitBang → t.lines.cs = .one ∧ t.lines.sck = .one ∧
        ∃ w, (wordsOf t.trace).getLast? = some w ∧ t.lines.sda = levelOf (w.getLsbD 0)) ∧
      (s.straps.backend = .hwSerial →
        t.lines.cs = s.lines.cs ∧ t.lines.sck = s.lines.sck ∧ t.lines.sda = s.lines.sda) ∧
      t = { s with
        backend := s.straps.backend, ids := s.straps.ids, colorMode := s.straps.colorMode
        fg := s.straps.fg, bg := s.straps.bg, orient := .deg0
        phase := .ready, stepNo := 7, tpOpen := true, pixCnt := 0
        bitCnt := if s.straps.backend = .bitBang then 0 else s.bitCnt
        lastCmd := some 0x2C, win := some ⟨2, 131, 1, 162⟩, rsp := 0, res := t.res
        lines := t.lines, traceRev := t.traceRev, answers := t.answers, ctl := t.ctl, owed := t.owed
        draws := t.draws }

/-- The checks of INIT in their order, each before anything is touched (43_sequencer R130, R142, 60_exceptions R207). -/
def Obligations.InitChecksComeFirst : Prop :=
  ∀ s : State,
    (s.phase ≠ .off → ∃ t, exec .init s = .next t ∧ RejectedWith .notReady s t) ∧
    (s.phase = .off → s.straps.colorMode ≠ 0x03 → s.straps.colorMode ≠ 0x05 → s.straps.colorMode ≠ 0x06 →
      ∃ t, exec .init s = .next t ∧ RejectedWith .invalidParam s t) ∧
    (s.phase = .off → s.straps.colorMode = 0x03 →
      ∃ t, exec .init s = .next t ∧ RejectedWith .unsupportedMode s t)

/-- A failure in the transport build (43_sequencer R131, R132, 60_exceptions R202): no event, no handle, `PHASE` stays `OFF`,
`ERR` = 1, the latched registers keep the straps' values. That the build is one indivisible run of 6 or 4 calls is log 14, and
that the loop counters are 0 afterwards is log 15. -/
def Obligations.FailedBuildStaysOff : Prop :=
  ∀ (s : State) (k : Nat) (rest : List Bool), s.phase = .off →
    (s.straps.colorMode = 0x05 ∨ s.straps.colorMode = 0x06) →
    (s.straps.backend = .bitBang ∧ k < 6 ∨ s.straps.backend = .hwSerial ∧ k < 4) →
    s.answers = List.replicate k true ++ false :: rest →
    ∃ t, exec .init s = .next t ∧ t = { s with
      backend := s.straps.backend, ids := s.straps.ids, colorMode := s.straps.colorMode
      fg := s.straps.fg, bg := s.straps.bg, orient := .deg0
      err := 1, rsp := 1, res := t.res, pixCnt := 0, bitCnt := 0
      answers := rest, ctl := t.ctl, draws := t.draws }

/-- A failure inside INIT after the build (43_sequencer R143, 60_exceptions R202): the steps before `STEP` have left all
their events, the failed step a proper part of its own, then `Close`; the handle is released, `PHASE` is `FAILED`, and
`LASTCMD` follows the trace. The order of the events inside power-reset's pairs and of the build is log 14, the loop counters
are log 15, the 18-bit layout is log 20. -/
def Obligations.FailedInitReleasesHandle : Prop :=
  ∀ s t : State, s.phase = .off → exec .init s = .next t → t.rsp = 1 → t.phase ≠ .off →
    t.phase = .failed ∧ t.tpOpen = false ∧ t.err = 1 ∧ 1 ≤ t.stepNo.val ∧
    (s.lastCmd = lastCommand s.trace → t.lastCmd = lastCommand t.trace) ∧
    (∃ (stepsEvents : List (List Event)) (part whole : List Event),
      stepsEvents = initStepEvents s.straps.backend s.straps.colorMode s.straps.bg s.params ∧
      stepsEvents[t.stepNo.val - 1]? = some whole ∧ part <+: whole ∧ part ≠ whole ∧
      t.trace = s.trace ++ openEvents s.straps.backend ++ (stepsEvents.take (t.stepNo.val - 1)).flatten ++ part ++
        [.closed]) ∧
    t = { s with
      backend := s.straps.backend, ids := s.straps.ids, colorMode := s.straps.colorMode
      fg := s.straps.fg, bg := s.straps.bg, orient := .deg0
      phase := .failed, tpOpen := false, err := 1, rsp := 1, pixCnt := 0, bitCnt := 0
      res := t.res, stepNo := t.stepNo, lastCmd := t.lastCmd, win := t.win, lines := t.lines
      traceRev := t.traceRev, answers := t.answers, ctl := t.ctl, owed := t.owed, draws := t.draws }

/-- CLOSE (43_sequencer R144): decoded from `op` 0x7; in `READY` and `FAILED` the handle, if held, is released with one
`Close` event, `PHASE` is `CLOSED`, and no line or other register changes; in the other phases it is rejected. -/
def Obligations.CloseCompletes : Prop :=
  (∀ s : State, (s.phase = .ready ∨ s.phase = .failed) →
    ∃ t, exec .close s = .next t ∧ t = { s with
      phase := .closed, tpOpen := false
      traceRev := if s.tpOpen then .closed :: s.traceRev else s.traceRev
      rsp := 0, res := t.res, draws := t.draws }) ∧
  (∀ s : State, (s.phase = .off ∨ s.phase = .init ∨ s.phase = .closed) →
    ∃ t, exec .close s = .next t ∧ RejectedWith .notReady s t) ∧
  ∀ (a0 a1 a2 a3 : Half), decode (.req (0x7#4 ++ a0 ++ a1 ++ a2 ++ a3)) = .ok .close

/-! ### Errors -/

/-- `E_NOT_READY` (60_exceptions R205): every sending request, and every word put on the link by itself (log 11), outside
`READY`; INIT outside `OFF`; CLOSE outside `READY` and `FAILED`. -/
def Obligations.NotReadyRejects : Prop :=
  ∀ (i : Instr) (s : State),
    (isSending i = true ∧ s.phase ≠ .ready) ∨ (i = .init ∧ s.phase ≠ .off) ∨
      (i = .close ∧ s.phase ≠ .ready ∧ s.phase ≠ .failed) →
    ∃ t, exec i s = .next t ∧ RejectedWith .notReady s t

/-- A transport failure inside a sending request (60_exceptions R202): `ERR` = 1, `PHASE` = `FAILED`, `TP_OPEN` stays 1;
`ORIENT` is not written; `WIN` is not written but for a CLEAR that failed after its window was sent; `LASTCMD` holds the last
command word that was accepted, if it did before; the loop counters are back at 0 (log 15). The link words presented by
themselves count as sending requests (log 11). -/
def Obligations.TransportFailureEntry : Prop :=
  ∀ (i : Instr) (s t : State), isSending i = true → Serving s → exec i s = .next t → t.rsp = 1 →
    (t.win = s.win ∨ (∃ r g b, i = .clear r g b) ∧ t.win = some ⟨2, 131, 1, 162⟩) ∧
    (s.lastCmd = lastCommand s.trace → t.lastCmd = lastCommand t.trace) ∧
    t = { s with
      err := 1, rsp := 1, phase := .failed, pixCnt := 0, bitCnt := 0
      res := t.res, win := t.win, lastCmd := t.lastCmd, lines := t.lines, traceRev := t.traceRev
      answers := t.answers, ctl := t.ctl, owed := t.owed, draws := t.draws }

/-- The trace of a sending request that fails is a proper prefix of the trace the same request leaves without the failure
(20_memory R70); the link words presented by themselves count as sending requests (log 11). -/
def Obligations.FailedRequestLeavesProperPrefix : Prop :=
  ∀ (i : Instr) (s t u : State), isSending i = true → Serving s → exec i s = .next t → t.rsp = 1 →
    exec i { s with answers := [] } = .next u → t.trace <+: u.trace ∧ t.trace ≠ u.trace

/-- A parameter, mode or phase error leaves no effect but on `ERR` and the response, in every request and every state
(60_exceptions R203 to R206; for the link words presented by themselves log 11). -/
def Obligations.RejectionHasNoOtherEffect : Prop :=
  ∀ (i : Instr) (s t : State) (e : Err), e ≠ .transport → exec i s = .next t → t.rsp = errCode e → RejectedWith e s t

/-- `RSP` is a code of 60_exceptions R201, and `ERR` is the code of the last request that did not answer OK (10_state R31). -/
def Obligations.ErrKeepsLastErrorCode : Prop :=
  ∀ (i : Instr) (s t : State), exec i s = .next t →
    t.rsp.toNat ≤ 4 ∧ (t.rsp = 0 → t.err = s.err) ∧ (t.rsp ≠ 0 → t.err = t.rsp)

/-- The table of 43_sequencer R145 is complete: phase before, request, phase after and response. The link words presented by
themselves stand in it as sending requests (log 11). -/
def Obligations.PhaseTableIsComplete : Prop :=
  ∀ (i : Instr) (s t : State), exec i s = .next t → phaseRow i s.phase t.phase t.rsp = true

/-! ### Invariants and whole-machine rules -/

/-- Every step keeps the invariant (10_state R42, R30, R33, R34, R41, 20_memory R55, 43_sequencer R145; the counters after a
failure are log 15, the acts of the host log 12, the link words log 11). -/
def Obligations.StepKeepsInvariant : Prop :=
  ∀ s t : State, Inv s → step s = .next t → Inv t

/-- The reset state has the invariant. -/
def Obligations.ResetHasInvariant : Prop :=
  Inv State.reset

/-- From a state with the invariant a step always answers a next state: no precondition of the transport is ever broken
(20_memory R51: the phase check guarantees `TP_OPEN` = 1; log 13) and nothing is refused. The acts of the host are log 12. -/
def Obligations.StepNeverStops : Prop :=
  ∀ s : State, Inv s → ∃ t, step s = .next t

/-- `TRACE` only grows (10_state R42 (6)). -/
def Obligations.TraceOnlyGrows : Prop :=
  ∀ (i : Instr) (s t : State), exec i s = .next t → s.trace <+: t.trace

/-- `BACKEND`, `COLORMODE`, `FG`, `BG` do not change while `PHASE` is not `OFF` (10_state R42 (4)). -/
def Obligations.LatchedConfigurationIsFixed : Prop :=
  ∀ (i : Instr) (s t : State), s.phase ≠ .off → exec i s = .next t →
    t.backend = s.backend ∧ t.ids = s.ids ∧ t.colorMode = s.colorMode ∧ t.fg = s.fg ∧ t.bg = s.bg

/-- The link is write-only (20_memory R58): nothing of the block depends on the controller-side registers or on the quiet time
owed to them. -/
def Obligations.BlockNeverReadsController : Prop :=
  ∀ (i : Instr) (s t : State) (c : Controller) (n : Nat), exec i s = .next t →
    ∃ t', exec i { s with ctl := c, owed := n } = .next t' ∧ t' = { t with ctl := t'.ctl, owed := t'.owed }

/-- No rule reads `ERR`, `LASTCMD`, `WIN`, `FG` or `STEP` to decide anything (10_state R25, R29, R31, R34, R35): states that
differ only there answer alike, with the same trace, lines and phase. -/
def Obligations.ShadowRegistersDecideNothing : Prop :=
  ∀ (i : Instr) (s t : State) (e : BitVec 3) (k : Option Byte) (w : Option Window) (c : Color) (n : Fin 8),
    exec i s = .next t →
    ∃ t', exec i { s with err := e, lastCmd := k, win := w, fg := c, stepNo := n } = .next t' ∧
      t' = { t with err := t'.err, lastCmd := t'.lastCmd, win := t'.win, fg := t'.fg, stepNo := t'.stepNo }

/-- The word-level trace does not depend on the backend (20_memory R56): two states that differ only in the backend (and its
strap, the lines and the bit counter), with no failure ahead, append the same words and holds. -/
def Obligations.BackendsSendTheSameWords : Prop :=
  ∀ (i : Instr) (s s' t t' : State), NoFailure s → NoFailure s' →
    s' = { s with
      backend := s'.backend, straps := { s.straps with backend := s'.straps.backend }
      lines := s'.lines, bitCnt := s'.bitCnt, answers := s'.answers, traceRev := s'.traceRev } →
    exec i s = .next t → exec i s' = .next t' →
    ∃ es, wordView t.trace = wordView s.trace ++ es ∧ wordView t'.trace = wordView s'.trace ++ es

/-! ### Reset -/

/-- The values 10_state R41 gives after reset, and the default of the colour-mode strap (70_reset_and_hazards R231, log 3). -/
def Obligations.ResetValues : Prop :=
  State.reset.phase = .off ∧ State.reset.stepNo = 0 ∧ State.reset.pixCnt = 0 ∧ State.reset.bitCnt = 0 ∧
  State.reset.err = 0 ∧ State.reset.tpOpen = false ∧ State.reset.orient = .deg0 ∧
  State.reset.lines = ⟨.x, .x, .x, .x, .x⟩ ∧ State.reset.lastCmd = none ∧ State.reset.win = none ∧
  State.reset.trace = [] ∧ State.reset.straps.colorMode = 0x05

/-- Block reset in any state (70_reset_and_hazards R230): the registers R41 gives a value take it, no word, pin or close event
is left, and the inputs and parameters stay. That the reset is an act on the host's list, which the step takes off, is the
model's choice (log 12), and so is the list of the environment's answers, none of which it uses (log 5). -/
def Obligations.BlockResetValues : Prop :=
  ∀ (s : State) (rest : List HostAct), s.host = .blockReset :: rest →
    ∃ t, step s = .next t ∧ t.phase = .off ∧ t.stepNo = 0 ∧ t.pixCnt = 0 ∧ t.bitCnt = 0 ∧ t.err = 0 ∧
      t.tpOpen = false ∧ t.orient = .deg0 ∧ t.lines = ⟨.x, .x, .x, .x, .x⟩ ∧ t.lastCmd = none ∧ t.win = none ∧
      t.trace = [] ∧ t.straps = s.straps ∧ t.params = s.params ∧ t.answers = s.answers ∧ t.host = rest

/-! ### The controller side -/

/-- With no quiet time owed, a window reaches the controller's column and row registers, high byte 0, and opens the pixel
stream; its other registers stay (47_link_commands R183 to R185, 10_state R39; the model's controller side is log 8, the
quiet time log 10). That this holds also of an end below its start is log 29, of a window beyond the panel log 30. -/
def Obligations.ControllerTakesWindow : Prop :=
  ∀ (s t : State) (x y w h : Half), Serving s → NoFailure s → s.owed = 0 →
    exec (.setWindow x y w h) s = .next t → t.rsp = 0 →
    t.ctl = { s.ctl with
      colStart := BitVec.ofNat 16 (x.toNat + 2), colEnd := BitVec.ofNat 16 (x.toNat + w.toNat + 1)
      rowStart := BitVec.ofNat 16 (y.toNat + 1), rowEnd := BitVec.ofNat 16 (y.toNat + h.toNat + 1)
      cmd := some 0x2C, args := [] }

/-- With no quiet time owed, an orientation reaches the memory-access-control register and ends the pixel stream
(47_link_commands R186, 46_orientation R170; log 8, log 10). -/
def Obligations.ControllerTakesOrientation : Prop :=
  ∀ (s t : State) (d : Half), Serving s → NoFailure s → s.owed = 0 →
    exec (.setOrientation d) s = .next t → t.rsp = 0 →
    t.ctl = { s.ctl with madctr := madctrByte s.params t.orient, cmd := some 0x36, args := [madctrByte s.params t.orient] }

/-- With no quiet time owed and the stream open, a 16-bit pixel is the next two bytes of the pixel stream and no register
changes (47_link_commands R185, R189; log 8, log 10). That this holds however many bytes the window has already been given is
the model's choice (log 31). -/
def Obligations.ControllerTakesPixelBytes : Prop :=
  ∀ (s t : State) (p : Half), Serving s → NoFailure s → s.owed = 0 → s.ctl.cmd = some 0x2C → s.colorMode = 0x05 →
    exec (.sendPixelP16 p) s = .next t →
    t.ctl = { s.ctl with args := p.extractLsb' 0 8 :: p.extractLsb' 8 8 :: s.ctl.args }

/-- With no quiet time owed, SLPOUT leaves sleep, DISPON turns the display on, and COLMOD with one of the three values sets the
colour mode (47_link_commands R181, R182, R187; log 8, log 10, log 11). That the mode may be set so after initialisation is the
model's choice (log 33). -/
def Obligations.ControllerTakesStateCommands : Prop :=
  ∀ (s t : State), Serving s → NoFailure s → s.owed = 0 →
    (exec .slpout s = .next t → t.ctl = { s.ctl with asleep := false, cmd := some 0x11, args := [] }) ∧
    (exec .dispon s = .next t → t.ctl = { s.ctl with displayOn := true, cmd := some 0x29, args := [] }) ∧
    ∀ (m : Byte) (u : State), (m = 0x03 ∨ m = 0x05 ∨ m = 0x06) → exec .colmod s = .next t →
      exec (.data m) t = .next u → u.ctl = { s.ctl with colMode := m, cmd := some 0x3A, args := [m] }

/-- After SWRESET, raw (70_reset_and_hazards R235) or put on the link by itself (log 11), the controller is owed at least
200 ms, and until the host has let that time pass the next word, whichever request of one word sends it, leaves its registers
unstated: the model's form of "the controller may miss words" (log 10), with free values drawn at the draw counter (log 8,
log 24). -/
def Obligations.SoftwareResetOwesQuietTime : Prop :=
  ∀ s t : State, Serving s → NoFailure s → (exec (.sendCmd 0x01) s = .next t ∨ exec .swreset s = .next t) →
    200 ≤ t.owed ∧
    ∀ (i : Instr) (u : State),
      ((∃ b, i = .sendCmd b ∨ i = .sendData b ∨ i = .data b) ∨ (namedCommand i).isSome = true) →
      exec i t = .next u → u.ctl = Controller.unknown t.draws
end

