-- ==== Sys2Proof/Laws/Encoding.lean ====
section
/-! SUPPORT. The fields of a request word and of a link word, as numbers. -/

namespace Sys2Proof

/-- Concatenation is a sum of numbers. -/
theorem toNat_append_add {a b : Nat} (x : BitVec a) (y : BitVec b) : (x ++ y).toNat = x.toNat * 2 ^ b + y.toNat := by
  rw [BitVec.toNat_append, ← Nat.shiftLeft_add_eq_or_of_lt y.isLt, Nat.shiftLeft_eq]

/-- A request word as a number (30_encoding R90). -/
theorem packReq_toNat (op : BitVec 4) (a0 a1 a2 a3 : Half) : (packReq op a0 a1 a2 a3).toNat =
    op.toNat * 2 ^ 64 + a0.toNat * 2 ^ 48 + a1.toNat * 2 ^ 32 + a2.toNat * 2 ^ 16 + a3.toNat := by
  refine (toNat_append_add (op ++ a0 ++ a1 ++ a2) a3).trans ?_
  rw [toNat_append_add (op ++ a0 ++ a1) a2, toNat_append_add (op ++ a0) a1, toNat_append_add op a0]
  omega

/-- The fields of a packed request. -/
theorem packReq_fields (op : BitVec 4) (a0 a1 a2 a3 : Half) :
    (packReq op a0 a1 a2 a3).op = op ∧ (packReq op a0 a1 a2 a3).a0 = a0 ∧ (packReq op a0 a1 a2 a3).a1 = a1 ∧
    (packReq op a0 a1 a2 a3).a2 = a2 ∧ (packReq op a0 a1 a2 a3).a3 = a3 := by
  have h := packReq_toNat op a0 a1 a2 a3
  have b := op.isLt
  have b0 := a0.isLt
  have b1 := a1.isLt
  have b2 := a2.isLt
  have b3 := a3.isLt
  refine ⟨?_, ?_, ?_, ?_, ?_⟩ <;> apply BitVec.eq_of_toNat_eq <;>
    simp only [ReqWord.op, ReqWord.a0, ReqWord.a1, ReqWord.a2, ReqWord.a3, BitVec.extractLsb'_toNat,
      Nat.shiftRight_eq_div_pow, h] <;> omega

@[simp] theorem packReq_op (op : BitVec 4) (a0 a1 a2 a3 : Half) : (packReq op a0 a1 a2 a3).op = op :=
  (packReq_fields op a0 a1 a2 a3).1
@[simp] theorem packReq_a0 (op : BitVec 4) (a0 a1 a2 a3 : Half) : (packReq op a0 a1 a2 a3).a0 = a0 :=
  (packReq_fields op a0 a1 a2 a3).2.1
@[simp] theorem packReq_a1 (op : BitVec 4) (a0 a1 a2 a3 : Half) : (packReq op a0 a1 a2 a3).a1 = a1 :=
  (packReq_fields op a0 a1 a2 a3).2.2.1
@[simp] theorem packReq_a2 (op : BitVec 4) (a0 a1 a2 a3 : Half) : (packReq op a0 a1 a2 a3).a2 = a2 :=
  (packReq_fields op a0 a1 a2 a3).2.2.2.1
@[simp] theorem packReq_a3 (op : BitVec 4) (a0 a1 a2 a3 : Half) : (packReq op a0 a1 a2 a3).a3 = a3 :=
  (packReq_fields op a0 a1 a2 a3).2.2.2.2

/-- Every request word is made of its five fields (30_encoding R90). -/
theorem packReq_of_fields (w : ReqWord) : packReq w.op w.a0 w.a1 w.a2 w.a3 = w := by
  apply BitVec.eq_of_toNat_eq
  have b := w.isLt
  rw [packReq_toNat]
  simp only [ReqWord.op, ReqWord.a0, ReqWord.a1, ReqWord.a2, ReqWord.a3, BitVec.extractLsb'_toNat,
    Nat.shiftRight_eq_div_pow]
  omega

/-- An 8-bit operand read from the field it was put in (30_encoding R92). -/
@[simp] theorem lowByte_byteField (b : Byte) : lowByte (byteField b) = b := by
  apply BitVec.eq_of_toNat_eq
  have e : (byteField b).toNat = b.toNat := by
    refine (toNat_append_add (0#8) b).trans ?_
    simp
  rw [lowByte, BitVec.extractLsb'_toNat, e]
  have := b.isLt
  omega

/-- A framed word as a number (30_encoding R81, R82). -/
theorem commandWord_toNat (b : Byte) : (commandWord b).toNat = b.toNat := by
  refine (toNat_append_add (0#1) b).trans ?_
  simp

theorem dataWord_toNat (b : Byte) : (dataWord b).toNat = 256 + b.toNat := by
  refine (toNat_append_add (1#1) b).trans ?_
  simp

/-- The framing bit and the payload of a framed word (30_encoding R80 to R82). -/
@[simp] theorem commandWord_dc (b : Byte) : (commandWord b).dc = false := by
  have := b.isLt
  simp [LinkWord.dc, BitVec.getLsbD, commandWord_toNat, Nat.testBit_eq_decide_div_mod_eq]
  omega

@[simp] theorem dataWord_dc (b : Byte) : (dataWord b).dc = true := by
  have := b.isLt
  simp [LinkWord.dc, BitVec.getLsbD, dataWord_toNat, Nat.testBit_eq_decide_div_mod_eq]
  omega

@[simp] theorem commandWord_payload (b : Byte) : (commandWord b).payload = b := by
  apply BitVec.eq_of_toNat_eq
  have := b.isLt
  rw [LinkWord.payload, BitVec.extractLsb'_toNat, commandWord_toNat]
  omega

@[simp] theorem dataWord_payload (b : Byte) : (dataWord b).payload = b := by
  apply BitVec.eq_of_toNat_eq
  have := b.isLt
  rw [LinkWord.payload, BitVec.extractLsb'_toNat, dataWord_toNat]
  omega

/-- Every link word is one of the two framings of its payload (30_encoding R80). -/
theorem linkWord_cases (w : LinkWord) :
    (w.dc = false ∧ w = commandWord w.payload) ∨ (w.dc = true ∧ w = dataWord w.payload) := by
  have b := w.isLt
  have d : w.dc = decide (w.toNat / 256 % 2 = 1) := by
    simp [LinkWord.dc, BitVec.getLsbD, Nat.testBit_eq_decide_div_mod_eq]
  have p : w.payload.toNat = w.toNat % 256 := by simp [LinkWord.payload]
  by_cases h : w.toNat / 256 % 2 = 1
  · refine .inr ⟨by rw [d]; simpa using h, ?_⟩
    apply BitVec.eq_of_toNat_eq
    rw [dataWord_toNat, p]
    omega
  · refine .inl ⟨by rw [d]; simpa using h, ?_⟩
    apply BitVec.eq_of_toNat_eq
    rw [commandWord_toNat, p]
    omega

end Sys2Proof
end

