-- ==== Sys2Proof/Laws/State.lean ====
section
/-! SUPPORT. One lemma per field per named update of the state, so that no later proof unfolds a record update. -/

namespace Sys2Proof.Machine

variable (s : State)

section emit
variable (e : Event)
@[simp] theorem State.emit_backend : (s.emit e).backend = s.backend := rfl
@[simp] theorem State.emit_ids : (s.emit e).ids = s.ids := rfl
@[simp] theorem State.emit_colorMode : (s.emit e).colorMode = s.colorMode := rfl
@[simp] theorem State.emit_orient : (s.emit e).orient = s.orient := rfl
@[simp] theorem State.emit_fg : (s.emit e).fg = s.fg := rfl
@[simp] theorem State.emit_bg : (s.emit e).bg = s.bg := rfl
@[simp] theorem State.emit_phase : (s.emit e).phase = s.phase := rfl
@[simp] theorem State.emit_stepNo : (s.emit e).stepNo = s.stepNo := rfl
@[simp] theorem State.emit_pixCnt : (s.emit e).pixCnt = s.pixCnt := rfl
@[simp] theorem State.emit_bitCnt : (s.emit e).bitCnt = s.bitCnt := rfl
@[simp] theorem State.emit_err : (s.emit e).err = s.err := rfl
@[simp] theorem State.emit_tpOpen : (s.emit e).tpOpen = s.tpOpen := rfl
@[simp] theorem State.emit_lines : (s.emit e).lines = s.lines := rfl
@[simp] theorem State.emit_lastCmd : (s.emit e).lastCmd = s.lastCmd := rfl
@[simp] theorem State.emit_win : (s.emit e).win = s.win := rfl
@[simp] theorem State.emit_traceRev : (s.emit e).traceRev = e :: s.traceRev := rfl
@[simp] theorem State.emit_rsp : (s.emit e).rsp = s.rsp := rfl
@[simp] theorem State.emit_res : (s.emit e).res = s.res := rfl
@[simp] theorem State.emit_straps : (s.emit e).straps = s.straps := rfl
@[simp] theorem State.emit_params : (s.emit e).params = s.params := rfl
@[simp] theorem State.emit_host : (s.emit e).host = s.host := rfl
@[simp] theorem State.emit_answers : (s.emit e).answers = s.answers := rfl
@[simp] theorem State.emit_ctl : (s.emit e).ctl = s.ctl := rfl
@[simp] theorem State.emit_owed : (s.emit e).owed = s.owed := rfl
@[simp] theorem State.emit_draws : (s.emit e).draws = s.draws := rfl
end emit

section latch
variable (l : Line) (v : Level)
@[simp] theorem State.latch_backend : (s.latch l v).backend = s.backend := rfl
@[simp] theorem State.latch_ids : (s.latch l v).ids = s.ids := rfl
@[simp] theorem State.latch_colorMode : (s.latch l v).colorMode = s.colorMode := rfl
@[simp] theorem State.latch_orient : (s.latch l v).orient = s.orient := rfl
@[simp] theorem State.latch_fg : (s.latch l v).fg = s.fg := rfl
@[simp] theorem State.latch_bg : (s.latch l v).bg = s.bg := rfl
@[simp] theorem State.latch_phase : (s.latch l v).phase = s.phase := rfl
@[simp] theorem State.latch_stepNo : (s.latch l v).stepNo = s.stepNo := rfl
@[simp] theorem State.latch_pixCnt : (s.latch l v).pixCnt = s.pixCnt := rfl
@[simp] theorem State.latch_bitCnt : (s.latch l v).bitCnt = s.bitCnt := rfl
@[simp] theorem State.latch_err : (s.latch l v).err = s.err := rfl
@[simp] theorem State.latch_tpOpen : (s.latch l v).tpOpen = s.tpOpen := rfl
@[simp] theorem State.latch_lines : (s.latch l v).lines = s.lines.set l v := rfl
@[simp] theorem State.latch_lastCmd : (s.latch l v).lastCmd = s.lastCmd := rfl
@[simp] theorem State.latch_win : (s.latch l v).win = s.win := rfl
@[simp] theorem State.latch_traceRev : (s.latch l v).traceRev = s.traceRev := rfl
@[simp] theorem State.latch_rsp : (s.latch l v).rsp = s.rsp := rfl
@[simp] theorem State.latch_res : (s.latch l v).res = s.res := rfl
@[simp] theorem State.latch_straps : (s.latch l v).straps = s.straps := rfl
@[simp] theorem State.latch_params : (s.latch l v).params = s.params := rfl
@[simp] theorem State.latch_host : (s.latch l v).host = s.host := rfl
@[simp] theorem State.latch_answers : (s.latch l v).answers = s.answers := rfl
@[simp] theorem State.latch_ctl : (s.latch l v).ctl = s.ctl := rfl
@[simp] theorem State.latch_owed : (s.latch l v).owed = s.owed := rfl
@[simp] theorem State.latch_draws : (s.latch l v).draws = s.draws := rfl
@[simp] theorem State.latch_trace : (s.latch l v).trace = s.trace := by simp [State.trace]
end latch

section takeAnswer
@[simp] theorem State.takeAnswer_backend : (s.takeAnswer).backend = s.backend := rfl
@[simp] theorem State.takeAnswer_ids : (s.takeAnswer).ids = s.ids := rfl
@[simp] theorem State.takeAnswer_colorMode : (s.takeAnswer).colorMode = s.colorMode := rfl
@[simp] theorem State.takeAnswer_orient : (s.takeAnswer).orient = s.orient := rfl
@[simp] theorem State.takeAnswer_fg : (s.takeAnswer).fg = s.fg := rfl
@[simp] theorem State.takeAnswer_bg : (s.takeAnswer).bg = s.bg := rfl
@[simp] theorem State.takeAnswer_phase : (s.takeAnswer).phase = s.phase := rfl
@[simp] theorem State.takeAnswer_stepNo : (s.takeAnswer).stepNo = s.stepNo := rfl
@[simp] theorem State.takeAnswer_pixCnt : (s.takeAnswer).pixCnt = s.pixCnt := rfl
@[simp] theorem State.takeAnswer_bitCnt : (s.takeAnswer).bitCnt = s.bitCnt := rfl
@[simp] theorem State.takeAnswer_err : (s.takeAnswer).err = s.err := rfl
@[simp] theorem State.takeAnswer_tpOpen : (s.takeAnswer).tpOpen = s.tpOpen := rfl
@[simp] theorem State.takeAnswer_lines : (s.takeAnswer).lines = s.lines := rfl
@[simp] theorem State.takeAnswer_lastCmd : (s.takeAnswer).lastCmd = s.lastCmd := rfl
@[simp] theorem State.takeAnswer_win : (s.takeAnswer).win = s.win := rfl
@[simp] theorem State.takeAnswer_traceRev : (s.takeAnswer).traceRev = s.traceRev := rfl
@[simp] theorem State.takeAnswer_rsp : (s.takeAnswer).rsp = s.rsp := rfl
@[simp] theorem State.takeAnswer_res : (s.takeAnswer).res = s.res := rfl
@[simp] theorem State.takeAnswer_straps : (s.takeAnswer).straps = s.straps := rfl
@[simp] theorem State.takeAnswer_params : (s.takeAnswer).params = s.params := rfl
@[simp] theorem State.takeAnswer_host : (s.takeAnswer).host = s.host := rfl
@[simp] theorem State.takeAnswer_answers : (s.takeAnswer).answers = s.answers.tail := rfl
@[simp] theorem State.takeAnswer_ctl : (s.takeAnswer).ctl = s.ctl := rfl
@[simp] theorem State.takeAnswer_owed : (s.takeAnswer).owed = s.owed := rfl
@[simp] theorem State.takeAnswer_draws : (s.takeAnswer).draws = s.draws := rfl
@[simp] theorem State.takeAnswer_trace : (s.takeAnswer).trace = s.trace := by simp [State.trace]
end takeAnswer

section deliver
variable (w : LinkWord)
@[simp] theorem State.deliver_backend : (s.deliver w).backend = s.backend := rfl
@[simp] theorem State.deliver_ids : (s.deliver w).ids = s.ids := rfl
@[simp] theorem State.deliver_colorMode : (s.deliver w).colorMode = s.colorMode := rfl
@[simp] theorem State.deliver_orient : (s.deliver w).orient = s.orient := rfl
@[simp] theorem State.deliver_fg : (s.deliver w).fg = s.fg := rfl
@[simp] theorem State.deliver_bg : (s.deliver w).bg = s.bg := rfl
@[simp] theorem State.deliver_phase : (s.deliver w).phase = s.phase := rfl
@[simp] theorem State.deliver_stepNo : (s.deliver w).stepNo = s.stepNo := rfl
@[simp] theorem State.deliver_pixCnt : (s.deliver w).pixCnt = s.pixCnt := rfl
@[simp] theorem State.deliver_bitCnt : (s.deliver w).bitCnt = s.bitCnt := rfl
@[simp] theorem State.deliver_err : (s.deliver w).err = s.err := rfl
@[simp] theorem State.deliver_tpOpen : (s.deliver w).tpOpen = s.tpOpen := rfl
@[simp] theorem State.deliver_lines : (s.deliver w).lines = s.lines := rfl
@[simp] theorem State.deliver_lastCmd : (s.deliver w).lastCmd = s.lastCmd := rfl
@[simp] theorem State.deliver_win : (s.deliver w).win = s.win := rfl
@[simp] theorem State.deliver_traceRev : (s.deliver w).traceRev = s.traceRev := rfl
@[simp] theorem State.deliver_rsp : (s.deliver w).rsp = s.rsp := rfl
@[simp] theorem State.deliver_res : (s.deliver w).res = s.res := rfl
@[simp] theorem State.deliver_straps : (s.deliver w).straps = s.straps := rfl
@[simp] theorem State.deliver_params : (s.deliver w).params = s.params := rfl
@[simp] theorem State.deliver_host : (s.deliver w).host = s.host := rfl
@[simp] theorem State.deliver_answers : (s.deliver w).answers = s.answers := rfl
@[simp] theorem State.deliver_ctl : (s.deliver w).ctl = Controller.receive s.draws s.owed w s.ctl := rfl
@[simp] theorem State.deliver_owed : (s.deliver w).owed = owedAfterWord w s.owed := rfl
@[simp] theorem State.deliver_draws : (s.deliver w).draws = s.draws + 1 := rfl
@[simp] theorem State.deliver_trace : (s.deliver w).trace = s.trace := by simp [State.trace]
end deliver

section wire
variable (l : Line) (v : Bool)
@[simp] theorem State.wire_backend : (s.wire l v).backend = s.backend := by cases l <;> cases v <;> rfl
@[simp] theorem State.wire_ids : (s.wire l v).ids = s.ids := by cases l <;> cases v <;> rfl
@[simp] theorem State.wire_colorMode : (s.wire l v).colorMode = s.colorMode := by cases l <;> cases v <;> rfl
@[simp] theorem State.wire_orient : (s.wire l v).orient = s.orient := by cases l <;> cases v <;> rfl
@[simp] theorem State.wire_fg : (s.wire l v).fg = s.fg := by cases l <;> cases v <;> rfl
@[simp] theorem State.wire_bg : (s.wire l v).bg = s.bg := by cases l <;> cases v <;> rfl
@[simp] theorem State.wire_phase : (s.wire l v).phase = s.phase := by cases l <;> cases v <;> rfl
@[simp] theorem State.wire_stepNo : (s.wire l v).stepNo = s.stepNo := by cases l <;> cases v <;> rfl
@[simp] theorem State.wire_pixCnt : (s.wire l v).pixCnt = s.pixCnt := by cases l <;> cases v <;> rfl
@[simp] theorem State.wire_bitCnt : (s.wire l v).bitCnt = s.bitCnt := by cases l <;> cases v <;> rfl
@[simp] theorem State.wire_err : (s.wire l v).err = s.err := by cases l <;> cases v <;> rfl
@[simp] theorem State.wire_tpOpen : (s.wire l v).tpOpen = s.tpOpen := by cases l <;> cases v <;> rfl
@[simp] theorem State.wire_lines : (s.wire l v).lines = s.lines := by cases l <;> cases v <;> rfl
@[simp] theorem State.wire_lastCmd : (s.wire l v).lastCmd = s.lastCmd := by cases l <;> cases v <;> rfl
@[simp] theorem State.wire_win : (s.wire l v).win = s.win := by cases l <;> cases v <;> rfl
@[simp] theorem State.wire_traceRev : (s.wire l v).traceRev = s.traceRev := by cases l <;> cases v <;> rfl
@[simp] theorem State.wire_rsp : (s.wire l v).rsp = s.rsp := by cases l <;> cases v <;> rfl
@[simp] theorem State.wire_res : (s.wire l v).res = s.res := by cases l <;> cases v <;> rfl
@[simp] theorem State.wire_straps : (s.wire l v).straps = s.straps := by cases l <;> cases v <;> rfl
@[simp] theorem State.wire_params : (s.wire l v).params = s.params := by cases l <;> cases v <;> rfl
@[simp] theorem State.wire_host : (s.wire l v).host = s.host := by cases l <;> cases v <;> rfl
@[simp] theorem State.wire_answers : (s.wire l v).answers = s.answers := by cases l <;> cases v <;> rfl
@[simp] theorem State.wire_trace : (s.wire l v).trace = s.trace := by simp [State.trace]
end wire

section forgetController
@[simp] theorem State.forgetController_backend : (s.forgetController).backend = s.backend := rfl
@[simp] theorem State.forgetController_ids : (s.forgetController).ids = s.ids := rfl
@[simp] theorem State.forgetController_colorMode : (s.forgetController).colorMode = s.colorMode := rfl
@[simp] theorem State.forgetController_orient : (s.forgetController).orient = s.orient := rfl
@[simp] theorem State.forgetController_fg : (s.forgetController).fg = s.fg := rfl
@[simp] theorem State.forgetController_bg : (s.forgetController).bg = s.bg := rfl
@[simp] theorem State.forgetController_phase : (s.forgetController).phase = s.phase := rfl
@[simp] theorem State.forgetController_stepNo : (s.forgetController).stepNo = s.stepNo := rfl
@[simp] theorem State.forgetController_pixCnt : (s.forgetController).pixCnt = s.pixCnt := rfl
@[simp] theorem State.forgetController_bitCnt : (s.forgetController).bitCnt = s.bitCnt := rfl
@[simp] theorem State.forgetController_err : (s.forgetController).err = s.err := rfl
@[simp] theorem State.forgetController_tpOpen : (s.forgetController).tpOpen = s.tpOpen := rfl
@[simp] theorem State.forgetController_lines : (s.forgetController).lines = s.lines := rfl
@[simp] theorem State.forgetController_lastCmd : (s.forgetController).lastCmd = s.lastCmd := rfl
@[simp] theorem State.forgetController_win : (s.forgetController).win = s.win := rfl
@[simp] theorem State.forgetController_traceRev : (s.forgetController).traceRev = s.traceRev := rfl
@[simp] theorem State.forgetController_rsp : (s.forgetController).rsp = s.rsp := rfl
@[simp] theorem State.forgetController_res : (s.forgetController).res = s.res := rfl
@[simp] theorem State.forgetController_straps : (s.forgetController).straps = s.straps := rfl
@[simp] theorem State.forgetController_params : (s.forgetController).params = s.params := rfl
@[simp] theorem State.forgetController_host : (s.forgetController).host = s.host := rfl
@[simp] theorem State.forgetController_answers : (s.forgetController).answers = s.answers := rfl
@[simp] theorem State.forgetController_ctl : (s.forgetController).ctl = Controller.unknown s.draws := rfl
@[simp] theorem State.forgetController_owed : (s.forgetController).owed = s.owed := rfl
@[simp] theorem State.forgetController_draws : (s.forgetController).draws = s.draws + 1 := rfl
@[simp] theorem State.forgetController_trace : (s.forgetController).trace = s.trace := by simp [State.trace]
end forgetController

section respond
variable (c : BitVec 3)
@[simp] theorem State.respond_backend : (s.respond c).backend = s.backend := rfl
@[simp] theorem State.respond_ids : (s.respond c).ids = s.ids := rfl
@[simp] theorem State.respond_colorMode : (s.respond c).colorMode = s.colorMode := rfl
@[simp] theorem State.respond_orient : (s.respond c).orient = s.orient := rfl
@[simp] theorem State.respond_fg : (s.respond c).fg = s.fg := rfl
@[simp] theorem State.respond_bg : (s.respond c).bg = s.bg := rfl
@[simp] theorem State.respond_phase : (s.respond c).phase = s.phase := rfl
@[simp] theorem State.respond_stepNo : (s.respond c).stepNo = s.stepNo := rfl
@[simp] theorem State.respond_pixCnt : (s.respond c).pixCnt = s.pixCnt := rfl
@[simp] theorem State.respond_bitCnt : (s.respond c).bitCnt = s.bitCnt := rfl
@[simp] theorem State.respond_err : (s.respond c).err = s.err := rfl
@[simp] theorem State.respond_tpOpen : (s.respond c).tpOpen = s.tpOpen := rfl
@[simp] theorem State.respond_lines : (s.respond c).lines = s.lines := rfl
@[simp] theorem State.respond_lastCmd : (s.respond c).lastCmd = s.lastCmd := rfl
@[simp] theorem State.respond_win : (s.respond c).win = s.win := rfl
@[simp] theorem State.respond_traceRev : (s.respond c).traceRev = s.traceRev := rfl
@[simp] theorem State.respond_rsp : (s.respond c).rsp = c := rfl
@[simp] theorem State.respond_res : (s.respond c).res = Config.freeRes s.draws := rfl
@[simp] theorem State.respond_straps : (s.respond c).straps = s.straps := rfl
@[simp] theorem State.respond_params : (s.respond c).params = s.params := rfl
@[simp] theorem State.respond_host : (s.respond c).host = s.host := rfl
@[simp] theorem State.respond_answers : (s.respond c).answers = s.answers := rfl
@[simp] theorem State.respond_ctl : (s.respond c).ctl = s.ctl := rfl
@[simp] theorem State.respond_owed : (s.respond c).owed = s.owed := rfl
@[simp] theorem State.respond_draws : (s.respond c).draws = s.draws + 1 := rfl
@[simp] theorem State.respond_trace : (s.respond c).trace = s.trace := by simp [State.trace]
end respond

section failTransport
@[simp] theorem State.failTransport_backend : (s.failTransport).backend = s.backend := by unfold State.failTransport; split <;> rfl
@[simp] theorem State.failTransport_ids : (s.failTransport).ids = s.ids := by unfold State.failTransport; split <;> rfl
@[simp] theorem State.failTransport_colorMode : (s.failTransport).colorMode = s.colorMode := by unfold State.failTransport; split <;> rfl
@[simp] theorem State.failTransport_orient : (s.failTransport).orient = s.orient := by unfold State.failTransport; split <;> rfl
@[simp] theorem State.failTransport_fg : (s.failTransport).fg = s.fg := by unfold State.failTransport; split <;> rfl
@[simp] theorem State.failTransport_bg : (s.failTransport).bg = s.bg := by unfold State.failTransport; split <;> rfl
@[simp] theorem State.failTransport_stepNo : (s.failTransport).stepNo = s.stepNo := by unfold State.failTransport; split <;> rfl
@[simp] theorem State.failTransport_pixCnt : (s.failTransport).pixCnt = s.pixCnt := by unfold State.failTransport; split <;> rfl
@[simp] theorem State.failTransport_bitCnt : (s.failTransport).bitCnt = s.bitCnt := by unfold State.failTransport; split <;> rfl
@[simp] theorem State.failTransport_err : (s.failTransport).err = s.err := by unfold State.failTransport; split <;> rfl
@[simp] theorem State.failTransport_lines : (s.failTransport).lines = s.lines := by unfold State.failTransport; split <;> rfl
@[simp] theorem State.failTransport_lastCmd : (s.failTransport).lastCmd = s.lastCmd := by unfold State.failTransport; split <;> rfl
@[simp] theorem State.failTransport_win : (s.failTransport).win = s.win := by unfold State.failTransport; split <;> rfl
@[simp] theorem State.failTransport_rsp : (s.failTransport).rsp = s.rsp := by unfold State.failTransport; split <;> rfl
@[simp] theorem State.failTransport_res : (s.failTransport).res = s.res := by unfold State.failTransport; split <;> rfl
@[simp] theorem State.failTransport_straps : (s.failTransport).straps = s.straps := by unfold State.failTransport; split <;> rfl
@[simp] theorem State.failTransport_params : (s.failTransport).params = s.params := by unfold State.failTransport; split <;> rfl
@[simp] theorem State.failTransport_host : (s.failTransport).host = s.host := by unfold State.failTransport; split <;> rfl
@[simp] theorem State.failTransport_answers : (s.failTransport).answers = s.answers := by unfold State.failTransport; split <;> rfl
@[simp] theorem State.failTransport_ctl : (s.failTransport).ctl = s.ctl := by unfold State.failTransport; split <;> rfl
@[simp] theorem State.failTransport_owed : (s.failTransport).owed = s.owed := by unfold State.failTransport; split <;> rfl
@[simp] theorem State.failTransport_draws : (s.failTransport).draws = s.draws := by unfold State.failTransport; split <;> rfl
end failTransport

section latchStraps
@[simp] theorem State.latchStraps_backend : (s.latchStraps).backend = s.straps.backend := rfl
@[simp] theorem State.latchStraps_ids : (s.latchStraps).ids = s.straps.ids := rfl
@[simp] theorem State.latchStraps_colorMode : (s.latchStraps).colorMode = s.straps.colorMode := rfl
@[simp] theorem State.latchStraps_orient : (s.latchStraps).orient = Orientation.deg0 := rfl
@[simp] theorem State.latchStraps_fg : (s.latchStraps).fg = s.straps.fg := rfl
@[simp] theorem State.latchStraps_bg : (s.latchStraps).bg = s.straps.bg := rfl
@[simp] theorem State.latchStraps_phase : (s.latchStraps).phase = s.phase := rfl
@[simp] theorem State.latchStraps_stepNo : (s.latchStraps).stepNo = s.stepNo := rfl
@[simp] theorem State.latchStraps_pixCnt : (s.latchStraps).pixCnt = s.pixCnt := rfl
@[simp] theorem State.latchStraps_bitCnt : (s.latchStraps).bitCnt = s.bitCnt := rfl
@[simp] theorem State.latchStraps_err : (s.latchStraps).err = s.err := rfl
@[simp] theorem State.latchStraps_tpOpen : (s.latchStraps).tpOpen = s.tpOpen := rfl
@[simp] theorem State.latchStraps_lines : (s.latchStraps).lines = s.lines := rfl
@[simp] theorem State.latchStraps_lastCmd : (s.latchStraps).lastCmd = s.lastCmd := rfl
@[simp] theorem State.latchStraps_win : (s.latchStraps).win = s.win := rfl
@[simp] theorem State.latchStraps_traceRev : (s.latchStraps).traceRev = s.traceRev := rfl
@[simp] theorem State.latchStraps_rsp : (s.latchStraps).rsp = s.rsp := rfl
@[simp] theorem State.latchStraps_res : (s.latchStraps).res = s.res := rfl
@[simp] theorem State.latchStraps_straps : (s.latchStraps).straps = s.straps := rfl
@[simp] theorem State.latchStraps_params : (s.latchStraps).params = s.params := rfl
@[simp] theorem State.latchStraps_host : (s.latchStraps).host = s.host := rfl
@[simp] theorem State.latchStraps_answers : (s.latchStraps).answers = s.answers := rfl
@[simp] theorem State.latchStraps_ctl : (s.latchStraps).ctl = s.ctl := rfl
@[simp] theorem State.latchStraps_owed : (s.latchStraps).owed = s.owed := rfl
@[simp] theorem State.latchStraps_draws : (s.latchStraps).draws = s.draws := rfl
@[simp] theorem State.latchStraps_trace : (s.latchStraps).trace = s.trace := by simp [State.trace]
end latchStraps

section release
@[simp] theorem State.release_backend : (s.release).backend = s.backend := by unfold State.release; split <;> simp_all
@[simp] theorem State.release_ids : (s.release).ids = s.ids := by unfold State.release; split <;> simp_all
@[simp] theorem State.release_colorMode : (s.release).colorMode = s.colorMode := by unfold State.release; split <;> simp_all
@[simp] theorem State.release_orient : (s.release).orient = s.orient := by unfold State.release; split <;> simp_all
@[simp] theorem State.release_fg : (s.release).fg = s.fg := by unfold State.release; split <;> simp_all
@[simp] theorem State.release_bg : (s.release).bg = s.bg := by unfold State.release; split <;> simp_all
@[simp] theorem State.release_phase : (s.release).phase = Phase.closed := by unfold State.release; split <;> simp_all
@[simp] theorem State.release_stepNo : (s.release).stepNo = s.stepNo := by unfold State.release; split <;> simp_all
@[simp] theorem State.release_pixCnt : (s.release).pixCnt = s.pixCnt := by unfold State.release; split <;> simp_all
@[simp] theorem State.release_bitCnt : (s.release).bitCnt = s.bitCnt := by unfold State.release; split <;> simp_all
@[simp] theorem State.release_err : (s.release).err = s.err := by unfold State.release; split <;> simp_all
@[simp] theorem State.release_tpOpen : (s.release).tpOpen = false := by unfold State.release; split <;> simp_all
@[simp] theorem State.release_lines : (s.release).lines = s.lines := by unfold State.release; split <;> simp_all
@[simp] theorem State.release_lastCmd : (s.release).lastCmd = s.lastCmd := by unfold State.release; split <;> simp_all
@[simp] theorem State.release_win : (s.release).win = s.win := by unfold State.release; split <;> simp_all
@[simp] theorem State.release_rsp : (s.release).rsp = s.rsp := by unfold State.release; split <;> simp_all
@[simp] theorem State.release_res : (s.release).res = s.res := by unfold State.release; split <;> simp_all
@[simp] theorem State.release_straps : (s.release).straps = s.straps := by unfold State.release; split <;> simp_all
@[simp] theorem State.release_params : (s.release).params = s.params := by unfold State.release; split <;> simp_all
@[simp] theorem State.release_host : (s.release).host = s.host := by unfold State.release; split <;> simp_all
@[simp] theorem State.release_answers : (s.release).answers = s.answers := by unfold State.release; split <;> simp_all
@[simp] theorem State.release_ctl : (s.release).ctl = s.ctl := by unfold State.release; split <;> simp_all
@[simp] theorem State.release_owed : (s.release).owed = s.owed := by unfold State.release; split <;> simp_all
@[simp] theorem State.release_draws : (s.release).draws = s.draws := by unfold State.release; split <;> simp_all
end release

section withHost
variable (h : List HostAct)
@[simp] theorem State.withHost_backend : (s.withHost h).backend = s.backend := rfl
@[simp] theorem State.withHost_ids : (s.withHost h).ids = s.ids := rfl
@[simp] theorem State.withHost_colorMode : (s.withHost h).colorMode = s.colorMode := rfl
@[simp] theorem State.withHost_orient : (s.withHost h).orient = s.orient := rfl
@[simp] theorem State.withHost_fg : (s.withHost h).fg = s.fg := rfl
@[simp] theorem State.withHost_bg : (s.withHost h).bg = s.bg := rfl
@[simp] theorem State.withHost_phase : (s.withHost h).phase = s.phase := rfl
@[simp] theorem State.withHost_stepNo : (s.withHost h).stepNo = s.stepNo := rfl
@[simp] theorem State.withHost_pixCnt : (s.withHost h).pixCnt = s.pixCnt := rfl
@[simp] theorem State.withHost_bitCnt : (s.withHost h).bitCnt = s.bitCnt := rfl
@[simp] theorem State.withHost_err : (s.withHost h).err = s.err := rfl
@[simp] theorem State.withHost_tpOpen : (s.withHost h).tpOpen = s.tpOpen := rfl
@[simp] theorem State.withHost_lines : (s.withHost h).lines = s.lines := rfl
@[simp] theorem State.withHost_lastCmd : (s.withHost h).lastCmd = s.lastCmd := rfl
@[simp] theorem State.withHost_win : (s.withHost h).win = s.win := rfl
@[simp] theorem State.withHost_traceRev : (s.withHost h).traceRev = s.traceRev := rfl
@[simp] theorem State.withHost_rsp : (s.withHost h).rsp = s.rsp := rfl
@[simp] theorem State.withHost_res : (s.withHost h).res = s.res := rfl
@[simp] theorem State.withHost_straps : (s.withHost h).straps = s.straps := rfl
@[simp] theorem State.withHost_params : (s.withHost h).params = s.params := rfl
@[simp] theorem State.withHost_host : (s.withHost h).host = h := rfl
@[simp] theorem State.withHost_answers : (s.withHost h).answers = s.answers := rfl
@[simp] theorem State.withHost_ctl : (s.withHost h).ctl = s.ctl := rfl
@[simp] theorem State.withHost_owed : (s.withHost h).owed = s.owed := rfl
@[simp] theorem State.withHost_draws : (s.withHost h).draws = s.draws := rfl
@[simp] theorem State.withHost_trace : (s.withHost h).trace = s.trace := by simp [State.trace]
end withHost

section pause
variable (ms : Nat)
@[simp] theorem State.pause_backend : (s.pause ms).backend = s.backend := rfl
@[simp] theorem State.pause_ids : (s.pause ms).ids = s.ids := rfl
@[simp] theorem State.pause_colorMode : (s.pause ms).colorMode = s.colorMode := rfl
@[simp] theorem State.pause_orient : (s.pause ms).orient = s.orient := rfl
@[simp] theorem State.pause_fg : (s.pause ms).fg = s.fg := rfl
@[simp] theorem State.pause_bg : (s.pause ms).bg = s.bg := rfl
@[simp] theorem State.pause_phase : (s.pause ms).phase = s.phase := rfl
@[simp] theorem State.pause_stepNo : (s.pause ms).stepNo = s.stepNo := rfl
@[simp] theorem State.pause_pixCnt : (s.pause ms).pixCnt = s.pixCnt := rfl
@[simp] theorem State.pause_bitCnt : (s.pause ms).bitCnt = s.bitCnt := rfl
@[simp] theorem State.pause_err : (s.pause ms).err = s.err := rfl
@[simp] theorem State.pause_tpOpen : (s.pause ms).tpOpen = s.tpOpen := rfl
@[simp] theorem State.pause_lines : (s.pause ms).lines = s.lines := rfl
@[simp] theorem State.pause_lastCmd : (s.pause ms).lastCmd = s.lastCmd := rfl
@[simp] theorem State.pause_win : (s.pause ms).win = s.win := rfl
@[simp] theorem State.pause_traceRev : (s.pause ms).traceRev = s.traceRev := rfl
@[simp] theorem State.pause_rsp : (s.pause ms).rsp = s.rsp := rfl
@[simp] theorem State.pause_res : (s.pause ms).res = s.res := rfl
@[simp] theorem State.pause_straps : (s.pause ms).straps = s.straps := rfl
@[simp] theorem State.pause_params : (s.pause ms).params = s.params := rfl
@[simp] theorem State.pause_host : (s.pause ms).host = s.host := rfl
@[simp] theorem State.pause_answers : (s.pause ms).answers = s.answers := rfl
@[simp] theorem State.pause_ctl : (s.pause ms).ctl = s.ctl := rfl
@[simp] theorem State.pause_owed : (s.pause ms).owed = s.owed - ms := rfl
@[simp] theorem State.pause_draws : (s.pause ms).draws = s.draws := rfl
@[simp] theorem State.pause_trace : (s.pause ms).trace = s.trace := by simp [State.trace]
end pause

@[simp] theorem State.emit_trace (e : Event) : (s.emit e).trace = s.trace ++ [e] := by
  simp [State.trace]

/-- `emitAll` appends its events in order. -/
theorem State.emitAll_eq (es : List Event) (s : State) :
    s.emitAll es = { s with traceRev := es.reverse ++ s.traceRev } := by
  induction es generalizing s with
  | nil => simp [State.emitAll]
  | cons e es ih =>
    have h : s.emitAll (e :: es) = (s.emit e).emitAll es := rfl
    rw [h, ih]
    simp [State.emit]

end Sys2Proof.Machine
end

