-- ==== Sys2Proof/Laws/Run.lean ====
section
/-! SUPPORT. Running procedures: what a sequence of statements can do, said once. -/

namespace Sys2Proof.Machine

@[simp] theorem Run.ok_andThen (s : State) (k : Proc) : (Run.ok s).andThen k = k s := rfl
@[simp] theorem Run.raised_andThen (e : Err) (s : State) (k : Proc) : (Run.raised e s).andThen k = .raised e s := rfl
@[simp] theorem Run.stopped_andThen (f : Fault) (k : Proc) : (Run.stopped f).andThen k = .stopped f := rfl
@[simp] theorem inOrder_nil (s : State) : inOrder [] s = .ok s := rfl
@[simp] theorem inOrder_cons (p : Proc) (ps : List Proc) (s : State) :
    inOrder (p :: ps) s = (p s).andThen (inOrder ps) := rfl
@[simp] theorem assign_apply (f : State → State) (s : State) : assign f s = .ok (f s) := rfl
@[simp] theorem finish_ok (s : State) : finish (.ok s) = .next (s.respond codeOK) := rfl
@[simp] theorem finish_raised (e : Err) (s : State) : finish (.raised e s) = .next (s.enter e) := rfl
@[simp] theorem finish_stopped (f : Fault) : finish (.stopped f) = .fault f := rfl

/-- A check that passes. -/
theorem require_pass {c : State → Bool} {e : Err} {s : State} (h : c s = true) : require c e s = .ok s := by
  simp [require, h]

/-- A check that fails. -/
theorem require_fail {c : State → Bool} {e : Err} {s : State} (h : c s = false) : require c e s = .raised e s := by
  simp [require, h]

/-- What a run ends in: a state with `Q` if it completes, one with `E` if an error is raised; a stop where a precondition
is broken is left open. -/
def Run.Ends (Q : State → Prop) (E : Err → State → Prop) : Run → Prop
  | .ok t => Q t
  | .raised e t => E e t
  | .stopped _ => True

/-- A relation that every statement respects, completed or raised, in every state. -/
def Respects (R : State → State → Prop) (p : Proc) : Prop :=
  ∀ s, (p s).Ends (R s) (fun _ t => R s t)

/-- Sequencing keeps what each part keeps. -/
theorem Respects.andThen {R : State → State → Prop} (tr : ∀ a b c, R a b → R b c → R a c) {p q : Proc}
    (hp : Respects R p) (hq : Respects R q) : Respects R (fun s => (p s).andThen q) := by
  intro s
  have h1 := hp s
  show ((p s).andThen q).Ends _ _
  cases h : p s with
  | ok t =>
    rw [h] at h1
    have h2 := hq t
    simp only [Run.ok_andThen]
    cases h' : q t with
    | ok u => rw [h'] at h2; exact tr _ _ _ h1 h2
    | raised e u => rw [h'] at h2; exact tr _ _ _ h1 h2
    | stopped f => trivial
  | raised e t => rw [h] at h1; exact h1
  | stopped f => trivial

/-- A list of statements keeps what each of them keeps. -/
theorem Respects.inOrder {R : State → State → Prop} (rf : ∀ a, R a a) (tr : ∀ a b c, R a b → R b c → R a c)
    {ps : List Proc} (h : ∀ p ∈ ps, Respects R p) : Respects R (inOrder ps) := by
  induction ps with
  | nil => intro s; exact rf s
  | cons p ps ih =>
    exact Respects.andThen tr (h p (by simp)) (ih fun q hq => h q (by simp [hq]))

/-- A register write keeps what its function keeps. -/
theorem Respects.assign {R : State → State → Prop} {f : State → State} (h : ∀ s, R s (f s)) :
    Respects R (assign f) := h

/-- A check writes nothing. -/
theorem Respects.require {R : State → State → Prop} (rf : ∀ a, R a a) (c : State → Bool) (e : Err) :
    Respects R (require c e) := by
  intro s
  unfold Machine.require
  split <;> exact rf s

end Sys2Proof.Machine
end

