-- ==== Sys2Proof/Laws/Link.lean ====
section
/-! SUPPORT. What the transport and the framer can do, said once: a body either puts its whole list of words on the link, or
is cut short by a transport failure after a proper part of the events of those words. -/

namespace Sys2Proof.Machine

/-- What no body of a request writes: the configuration, the phase, the status, the handle, the inputs. -/
structure KeepsSetup (s t : State) : Prop where
  backend : t.backend = s.backend
  ids : t.ids = s.ids
  colorMode : t.colorMode = s.colorMode
  fg : t.fg = s.fg
  bg : t.bg = s.bg
  phase : t.phase = s.phase
  err : t.err = s.err
  tpOpen : t.tpOpen = s.tpOpen
  rsp : t.rsp = s.rsp
  res : t.res = s.res
  straps : t.straps = s.straps
  params : t.params = s.params
  host : t.host = s.host

theorem KeepsSetup.refl (s : State) : KeepsSetup s s := by constructor <;> rfl

theorem KeepsSetup.trans {a b c : State} (h : KeepsSetup a b) (k : KeepsSetup b c) : KeepsSetup a c := by
  constructor
  · rw [k.backend, h.backend]
  · rw [k.ids, h.ids]
  · rw [k.colorMode, h.colorMode]
  · rw [k.fg, h.fg]
  · rw [k.bg, h.bg]
  · rw [k.phase, h.phase]
  · rw [k.err, h.err]
  · rw [k.tpOpen, h.tpOpen]
  · rw [k.rsp, h.rsp]
  · rw [k.res, h.res]
  · rw [k.straps, h.straps]
  · rw [k.params, h.params]
  · rw [k.host, h.host]

/-- The registers that bodies write beside sending words. -/
structure Marks where
  orient : Orientation
  stepNo : Fin 8
  pixCnt : Nat
  lastCmd : Option Byte
  win : Option Window

/-- The marks of a state. -/
def State.marks (s : State) : Marks := ⟨s.orient, s.stepNo, s.pixCnt, s.lastCmd, s.win⟩

/-- The controller side after several words. -/
def delivered (ws : List LinkWord) (s : State) : State := ws.foldl (fun t w => t.deliver w) s

/-- A body that put the words `ws` on the link and changed the marks by `m`. -/
structure Done (m : Marks → Marks) (ws : List LinkWord) (s t : State) : Prop where
  keeps : KeepsSetup s t
  marks : t.marks = m s.marks
  trace : t.trace = s.trace ++ wordsEvents s.backend ws
  lines : t.lines = linesAfterWords s.backend ws s.lines
  bitCnt : t.bitCnt = if s.backend = .bitBang ∧ ws ≠ [] then 0 else s.bitCnt
  ctl : t.ctl = (delivered ws s).ctl
  owed : t.owed = (delivered ws s).owed
  draws : t.draws = (delivered ws s).draws
  answers : t.answers <:+ s.answers

/-- A body cut short by a transport failure inside the events `es`. -/
structure CutShort (es : List Event) (s t : State) : Prop where
  keeps : KeepsSetup s t
  trace : ∃ k, k < es.length ∧ t.trace = s.trace ++ es.take k
  answers : false ∈ s.answers

/-- What a body that sends the words `ws` can end in. -/
def Sends (m : Marks → Marks) (ws : List LinkWord) (s : State) : Run → Prop
  | .ok t => Done m ws s t
  | .raised e t => e = .transport ∧ CutShort (wordsEvents s.backend ws) s t
  | .stopped _ => False

theorem wordsEvents_append (k : Backend) (a b : List LinkWord) :
    wordsEvents k (a ++ b) = wordsEvents k a ++ wordsEvents k b := by
  simp [wordsEvents]

theorem wordsEvents_cons (k : Backend) (a : LinkWord) (b : List LinkWord) :
    wordsEvents k (a :: b) = wordEvents k a ++ wordsEvents k b := by
  simp [wordsEvents]

theorem linesAfterWords_append (k : Backend) (a b : List LinkWord) (ls : Lines) :
    linesAfterWords k (a ++ b) ls = linesAfterWords k b (linesAfterWords k a ls) := by
  simp [linesAfterWords]

/-- Delivery reads and writes the controller side only. -/
theorem delivered_congr (ws : List LinkWord) {s t : State} (hc : t.ctl = s.ctl) (ho : t.owed = s.owed)
    (hd : t.draws = s.draws) : (delivered ws t).ctl = (delivered ws s).ctl ∧
      (delivered ws t).owed = (delivered ws s).owed ∧ (delivered ws t).draws = (delivered ws s).draws := by
  induction ws generalizing s t with
  | nil => exact ⟨hc, ho, hd⟩
  | cons w ws ih => exact ih (by simp [hc, ho, hd]) (by simp [ho]) (by simp [hd])

/-- Nothing sent. -/
theorem Done.nothing (s : State) : Done id [] s s :=
  { keeps := KeepsSetup.refl s, marks := rfl, trace := by simp [wordsEvents], lines := rfl, bitCnt := by simp,
    ctl := rfl, owed := rfl, draws := rfl, answers := List.suffix_refl _ }

/-- Sequencing of completed bodies. -/
theorem Done.trans {m m' : Marks → Marks} {ws ws' : List LinkWord} {s t u : State} (h : Done m ws s t)
    (k : Done m' ws' t u) : Done (m' ∘ m) (ws ++ ws') s u := by
  obtain ⟨dc, dd, de⟩ := delivered_congr ws' h.ctl h.owed h.draws
  have fold : delivered (ws ++ ws') s = delivered ws' (delivered ws s) := by simp [delivered]
  constructor
  · exact h.keeps.trans k.keeps
  · rw [k.marks, h.marks]; rfl
  · rw [k.trace, h.trace, h.keeps.backend, wordsEvents_append, List.append_assoc]
  · rw [k.lines, h.lines, h.keeps.backend, linesAfterWords_append]
  · rw [k.bitCnt, h.bitCnt, h.keeps.backend]
    by_cases hb : s.backend = .bitBang <;> by_cases h1 : ws = [] <;> by_cases h2 : ws' = [] <;> simp [hb, h1, h2]
  · rw [k.ctl, dc, fold]
  · rw [k.owed, dd, fold]
  · rw [k.draws, de, fold]
  · exact k.answers.trans h.answers

/-- Sequencing of bodies: the words of both, or a cut inside the first, or one inside the second after the whole first. -/
theorem Sends.andThen {m m' : Marks → Marks} {ws ws' : List LinkWord} {s : State} {r : Run} {q : Proc}
    (h : Sends m ws s r) (k : ∀ t, Done m ws s t → Sends m' ws' t (q t)) :
    Sends (m' ∘ m) (ws ++ ws') s (r.andThen q) := by
  cases r with
  | stopped f => exact h.elim
  | raised e t =>
    obtain ⟨rfl, hc⟩ := h
    refine ⟨rfl, hc.keeps, ?_, hc.answers⟩
    obtain ⟨n, hn, ht⟩ := hc.trace
    refine ⟨n, ?_, ?_⟩
    · rw [wordsEvents_append]; simp; omega
    · rw [ht, wordsEvents_append, List.take_append_of_le_length (by omega)]
  | ok t =>
    have hd : Done m ws s t := h
    have hk := k t hd
    simp only [Run.ok_andThen]
    cases hq : q t with
    | stopped f => rw [hq] at hk; exact hk.elim
    | ok u => rw [hq] at hk; exact hd.trans hk
    | raised e u =>
      rw [hq] at hk
      obtain ⟨rfl, hc⟩ := hk
      refine ⟨rfl, hd.keeps.trans hc.keeps, ?_, hd.answers.subset hc.answers⟩
      obtain ⟨n, hn, ht⟩ := hc.trace
      rw [hd.keeps.backend] at hn ht
      refine ⟨(wordsEvents s.backend ws).length + n, ?_, ?_⟩
      · rw [wordsEvents_append]; simp; omega
      · rw [ht, hd.trace, wordsEvents_append, List.take_length_add_append, List.append_assoc]

/-- With no failure ahead a body completes. -/
theorem Sends.completes {m : Marks → Marks} {ws : List LinkWord} {s : State} {r : Run} (h : Sends m ws s r)
    (hn : NoFailure s) : ∃ t, r = .ok t ∧ Done m ws s t := by
  cases r with
  | ok t => exact ⟨t, rfl, h⟩
  | raised e t => exact absurd (hn _ h.2.answers) (by simp)
  | stopped f => exact h.elim

/-- What one capability call does. -/
theorem capabilityCall_cases (s : State) :
    (s.callSucceeds = true ∧ capabilityCall s = .ok s.takeAnswer) ∨
    (s.callSucceeds = false ∧ capabilityCall s = .raised .transport s.takeAnswer) := by
  unfold capabilityCall
  cases s.callSucceeds <;> simp

/-- A failing call means a failure was ahead. -/
theorem failure_ahead {s : State} (h : s.callSucceeds = false) : false ∈ s.answers := by
  unfold State.callSucceeds at h
  cases ha : s.answers with
  | nil => rw [ha] at h; simp at h
  | cons a as => rw [ha] at h; simp at h; simp [h]

/-- What a pin write on a configured line does. -/
theorem pinWrite_cases {s : State} {l : Line} (v : Bool) (hc : s.configured l = true) :
    (s.callSucceeds = true ∧
      pinWrite l v s = .ok (((s.takeAnswer.latch l (levelOf v)).wire l v).emit (.pin l v))) ∨
    (s.callSucceeds = false ∧ pinWrite l v s = .raised .transport (s.takeAnswer.latch l .x)) := by
  unfold pinWrite
  cases s.callSucceeds <;> simp [hc]

/-- What a write of a word line (not `RST`) ends in, beside its event: the setup, the marks and the controller side stay. -/
structure PinDone (es : List Event) (s t : State) : Prop where
  keeps : KeepsSetup s t
  marks : t.marks = s.marks
  trace : t.trace = s.trace ++ es
  ctl : t.ctl = s.ctl
  owed : t.owed = s.owed
  draws : t.draws = s.draws
  answers : t.answers <:+ s.answers

/-- What a sequence of writes of word lines with the events `es` can end in; `f` and `g` are what it does to the latches and
to the bit counter. -/
def Writes (es : List Event) (f : Lines → Lines) (g : Nat → Nat) (s : State) : Run → Prop
  | .ok t => PinDone es s t ∧ t.lines = f s.lines ∧ t.bitCnt = g s.bitCnt
  | .raised e t => e = .transport ∧ CutShort es s t ∧ t.marks = s.marks
  | .stopped _ => False

/-- Sequencing of pin writes. -/
theorem Writes.andThen {es es' : List Event} {f f' : Lines → Lines} {g g' : Nat → Nat} {s : State} {r : Run} {q : Proc}
    (h : Writes es f g s r) (k : ∀ t, PinDone es s t → Writes es' f' g' t (q t)) :
    Writes (es ++ es') (f' ∘ f) (g' ∘ g) s (r.andThen q) := by
  cases r with
  | stopped f => exact h.elim
  | raised e t =>
    obtain ⟨rfl, hc, hm⟩ := h
    obtain ⟨i, hi, ht⟩ := hc.trace
    refine ⟨rfl, ⟨hc.keeps, ⟨i, by simp; omega, ?_⟩, hc.answers⟩, hm⟩
    rw [ht, List.take_append_of_le_length (by omega)]
  | ok t =>
    obtain ⟨hd, hl, hb⟩ := h
    have hk := k t hd
    simp only [Run.ok_andThen]
    cases hq : q t with
    | stopped f => rw [hq] at hk; exact hk.elim
    | ok u =>
      rw [hq] at hk
      obtain ⟨kd, kl, kb⟩ := hk
      refine ⟨⟨hd.keeps.trans kd.keeps, kd.marks.trans hd.marks, ?_, kd.ctl.trans hd.ctl, kd.owed.trans hd.owed,
        kd.draws.trans hd.draws, kd.answers.trans hd.answers⟩, by rw [kl, hl]; rfl, by rw [kb, hb]; rfl⟩
      rw [kd.trace, hd.trace, List.append_assoc]
    | raised e u =>
      rw [hq] at hk
      obtain ⟨rfl, hc, hm⟩ := hk
      obtain ⟨i, hi, ht⟩ := hc.trace
      refine ⟨rfl, ⟨hd.keeps.trans hc.keeps, ⟨es.length + i, by simp; omega, ?_⟩, hd.answers.subset hc.answers⟩,
        hm.trans hd.marks⟩
      rw [ht, hd.trace, List.take_length_add_append, List.append_assoc]

/-- The bit-banged backend with the handle held has every line configured (43_sequencer R132). -/
theorem configured_of_bitBang {s : State} (ho : s.tpOpen = true) (hb : s.backend = .bitBang) (l : Line) :
    s.configured l = true := by
  cases l <;> simp [State.configured, configuredLines, ho, hb]

/-- One write of a line other than `RST`. -/
theorem pinWrite_writes {s : State} (l : Line) (v : Bool) (hc : s.configured l = true) (hl : l ≠ .rst) :
    Writes [.pin l v] (Lines.set l (levelOf v)) id s (pinWrite l v s) := by
  have hw : ∀ t : State, t.wire l v = t := by intro t; cases l <;> first | rfl | exact absurd rfl hl
  rcases pinWrite_cases v hc with ⟨_, h⟩ | ⟨hf, h⟩
  · rw [h, hw]
    refine ⟨⟨?_, rfl, by simp, rfl, rfl, rfl, ?_⟩, rfl, rfl⟩
    · constructor <;> rfl
    · exact List.tail_suffix _
  · rw [h]
    refine ⟨rfl, ⟨?_, ⟨0, by simp, by simp⟩, failure_ahead hf⟩, rfl⟩
    constructor <;> rfl

/-- No write at all. -/
theorem Writes.nothing (s : State) : Writes [] id id s (.ok s) :=
  ⟨⟨KeepsSetup.refl s, rfl, by simp, rfl, rfl, rfl, List.suffix_refl _⟩, rfl, rfl⟩

/-- The bit counter is written. -/
theorem Writes.bitCnt (n : Nat) (s : State) :
    Writes [] id (fun _ => n) s (assign (fun t => { t with bitCnt := n }) s) := by
  refine ⟨⟨?_, rfl, by simp [State.trace], rfl, rfl, rfl, List.suffix_refl _⟩, rfl, rfl⟩
  constructor <;> rfl

/-- The same writes with their effect said otherwise. -/
theorem Writes.congr {es : List Event} {f f' : Lines → Lines} {g g' : Nat → Nat} {s : State} {r : Run}
    (h : Writes es f g s r) (hf : f s.lines = f' s.lines) (hg : g s.bitCnt = g' s.bitCnt) : Writes es f' g' s r := by
  cases r with
  | ok t => exact ⟨h.1, h.2.1.trans hf, h.2.2.trans hg⟩
  | raised e t => exact h
  | stopped f => exact h

/-- The latches after the low `n` bits of a word. -/
def linesAfterBits (v : LinkWord) (n : Nat) (ls : Lines) : Lines :=
  if n = 0 then ls else { ls with sck := .one, sda := levelOf (v.getLsbD 0) }

/-- The bit loop (20_memory R53). -/
theorem bbBits_writes (v : LinkWord) (n : Nat) {s : State} (ho : s.tpOpen = true) (hb : s.backend = .bitBang) :
    Writes (bitsPins v n) (linesAfterBits v n) (fun c => if n = 0 then c else 8) s (bbBits v n s) := by
  induction n generalizing s with
  | zero => exact (Writes.nothing s).congr rfl rfl
  | succ n ih =>
    have e : bitsPins v (n + 1) =
      [] ++ ([.pin .sda (v.getLsbD n)] ++ ([.pin .sck false] ++ ([.pin .sck true] ++ (bitsPins v n ++ [])))) := by
      simp [bitsPins, bitPins]
    rw [e]
    have h := (Writes.bitCnt (8 - n) s).andThen (q := inOrder [pinWrite .sda (v.getLsbD n), pinWrite .sck false,
        pinWrite .sck true, bbBits v n]) fun t0 d0 =>
      have o0 := d0.keeps.tpOpen.trans ho
      have b0 := d0.keeps.backend.trans hb
      (pinWrite_writes .sda (v.getLsbD n) (configured_of_bitBang o0 b0 _) (by simp)).andThen fun t1 d1 =>
      have o1 := d1.keeps.tpOpen.trans o0
      have b1 := d1.keeps.backend.trans b0
      (pinWrite_writes .sck false (configured_of_bitBang o1 b1 _) (by simp)).andThen fun t2 d2 =>
      have o2 := d2.keeps.tpOpen.trans o1
      have b2 := d2.keeps.backend.trans b1
      (pinWrite_writes .sck true (configured_of_bitBang o2 b2 _) (by simp)).andThen fun t3 d3 =>
      (ih (d3.keeps.tpOpen.trans o2) (d3.keeps.backend.trans b2)).andThen fun t4 _ => Writes.nothing t4
    refine Writes.congr h ?_ ?_
    · by_cases hn : n = 0
      · subst hn; simp [linesAfterBits, Lines.set, levelOf]
      · simp [linesAfterBits, Lines.set, hn, levelOf]
    · by_cases hn : n = 0 <;> simp [hn]

/-- One word on the bit-banged backend (20_memory R53, R55). -/
theorem bbSend_writes (v : LinkWord) {s : State} (ho : s.tpOpen = true) (hb : s.backend = .bitBang) :
    Writes (wordPins v) (linesAfterWord .bitBang v) (fun _ => 0) s (bbSend v s) := by
  have e : wordPins v = [.pin .cs false] ++ (bitsPins v 9 ++ ([.pin .cs true] ++ ([] ++ []))) := by
    simp [wordPins]
  rw [e]
  have h := (pinWrite_writes .cs false (configured_of_bitBang ho hb _) (by simp)).andThen
      (q := inOrder [bbBits v 9, pinWrite .cs true, assign (fun s => { s with bitCnt := 0 })]) fun t1 d1 =>
    have o1 := d1.keeps.tpOpen.trans ho
    have b1 := d1.keeps.backend.trans hb
    (bbBits_writes v 9 o1 b1).andThen fun t2 d2 =>
    have o2 := d2.keeps.tpOpen.trans o1
    have b2 := d2.keeps.backend.trans b1
    (pinWrite_writes .cs true (configured_of_bitBang o2 b2 _) (by simp)).andThen fun t3 _ =>
    (Writes.bitCnt 0 t3).andThen fun t4 _ => Writes.nothing t4
  exact Writes.congr h (by simp [linesAfterWord, linesAfterBits, Lines.set, levelOf]) rfl

/-- `LinkSend` (20_memory R51): one word sent, no mark changed. -/
theorem linkSend_sends (w : LinkWord) {s : State} (ho : s.tpOpen = true) : Sends id [w] s (linkSend w s) := by
  unfold linkSend
  rw [if_pos ho]
  cases hb : s.backend with
  | hwSerial =>
    simp only [inOrder_cons, hwSend]
    rcases capabilityCall_cases s with ⟨_, h⟩ | ⟨hf, h⟩
    · simp only [h, Run.ok_andThen]
      refine ⟨?_, rfl, ?_, ?_, ?_, rfl, rfl, rfl, List.tail_suffix _⟩
      · constructor <;> rfl
      · simp [wordsEvents, wordEvents, hb]
      · simp [linesAfterWords, linesAfterWord, hb]
      · simp [hb]
    · simp only [h, Run.raised_andThen]
      refine ⟨rfl, ?_, ⟨0, by simp [wordsEvents, wordEvents, hb], by simp⟩, failure_ahead hf⟩
      constructor <;> rfl
  | bitBang =>
    simp only [inOrder_cons]
    have h := bbSend_writes w ho hb
    cases hr : bbSend w s with
    | stopped f => rw [hr] at h; exact h.elim
    | raised e t =>
      rw [hr] at h
      obtain ⟨rfl, hc, _⟩ := h
      obtain ⟨i, hi, ht⟩ := hc.trace
      refine ⟨rfl, hc.keeps, ⟨i, ?_, ?_⟩, hc.answers⟩
      · simp [wordsEvents, wordEvents, hb]; omega
      · simp only [wordsEvents, wordEvents, hb, List.flatMap_cons, List.flatMap_nil, List.append_nil]
        rw [ht, List.take_append_of_le_length (by omega)]
    | ok t =>
      rw [hr] at h
      obtain ⟨hd, hl, hn⟩ := h
      simp only [Run.ok_andThen]
      refine ⟨?_, ?_, ?_, ?_, ?_, ?_, ?_, ?_, ?_⟩
      · have k := hd.keeps
        constructor
        · exact k.backend
        · exact k.ids
        · exact k.colorMode
        · exact k.fg
        · exact k.bg
        · exact k.phase
        · exact k.err
        · exact k.tpOpen
        · exact k.rsp
        · exact k.res
        · exact k.straps
        · exact k.params
        · exact k.host
      · exact hd.marks
      · simp [hd.trace, wordsEvents, wordEvents, hb]
      · simp [hl, linesAfterWords, hb]
      · simp [hn, hb]
      · simp [delivered, hd.ctl, hd.owed, hd.draws]
      · simp [delivered, hd.owed]
      · simp [delivered, hd.draws]
      · exact hd.answers

/-- `SendData(b)` (42_framer R125). -/
theorem sendData_sends (b : Byte) {s : State} (ho : s.tpOpen = true) : Sends id [dataWord b] s (sendData b s) :=
  linkSend_sends _ ho

/-- `s` with the marks given. -/
def State.withMarks (s : State) (m : Marks) : State :=
  { s with orient := m.orient, stepNo := m.stepNo, pixCnt := m.pixCnt, lastCmd := m.lastCmd, win := m.win }

/-- A write of marks sends nothing. -/
theorem Sends.marks (m : Marks → Marks) (s : State) : Sends m [] s (.ok (s.withMarks (m s.marks))) := by
  refine ⟨?_, rfl, by simp [State.trace, State.withMarks, wordsEvents], rfl, by simp [State.withMarks], rfl, rfl, rfl,
    List.suffix_refl _⟩
  constructor <;> rfl

/-- The end of a list of statements. -/
theorem Sends.nothing (s : State) : Sends id [] s (inOrder [] s) := Done.nothing s

/-- `SendCmd(b)` (42_framer R125). -/
theorem sendCmd_sends (b : Byte) {s : State} (ho : s.tpOpen = true) :
    Sends (fun m => { m with lastCmd := some b }) [commandWord b] s (sendCmd b s) :=
  (linkSend_sends (commandWord b) ho).andThen (m' := fun m => { m with lastCmd := some b })
    (ws' := []) fun t _ => Sends.marks (fun m => { m with lastCmd := some b }) t

/-- Several data words. -/
theorem sendBytes_sends (bs : List Byte) {s : State} (ho : s.tpOpen = true) :
    Sends id (bs.map dataWord) s (sendBytes bs s) := by
  induction bs generalizing s with
  | nil => exact Done.nothing s
  | cons b bs ih =>
    exact (sendData_sends b ho).andThen (m' := id) fun t hd => ih (hd.keeps.tpOpen.trans ho)

/-- A relation that the bit counter, the word lines, a `sendWord` and the acceptance of a word respect is respected by
`LinkSend`. -/
theorem linkSend_respects {R : State → State → Prop} (rf : ∀ a, R a a) (tr : ∀ a b c, R a b → R b c → R a c)
    (hbit : ∀ s n, R s { s with bitCnt := n }) (hpin : ∀ l v, l ≠ .bl → l ≠ .rst → Respects R (pinWrite l v))
    (hcall : Respects R capabilityCall) (hword : ∀ w s, R s ((s.deliver w).emit (.w9 w))) (w : LinkWord) :
    Respects R (linkSend w) := by
  have hbits : ∀ n, Respects R (bbBits w n) := by
    intro n
    induction n with
    | zero => exact fun s => rf s
    | succ n ih =>
      refine Respects.inOrder rf tr fun p hp => ?_
      simp only [List.mem_cons, List.not_mem_nil, or_false] at hp
      rcases hp with rfl | rfl | rfl | rfl | rfl
      · exact Respects.assign fun s => hbit s _
      · exact hpin _ _ (by simp) (by simp)
      · exact hpin _ _ (by simp) (by simp)
      · exact hpin _ _ (by simp) (by simp)
      · exact ih
  have hbb : Respects R (bbSend w) := by
    refine Respects.inOrder rf tr fun p hp => ?_
    simp only [List.mem_cons, List.not_mem_nil, or_false] at hp
    rcases hp with rfl | rfl | rfl | rfl
    · exact hpin _ _ (by simp) (by simp)
    · exact hbits 9
    · exact hpin _ _ (by simp) (by simp)
    · exact Respects.assign fun s => hbit s _
  intro s
  unfold linkSend
  split
  · refine Respects.inOrder rf tr (fun p hp => ?_) s
    simp only [List.mem_cons, List.not_mem_nil, or_false] at hp
    rcases hp with rfl | rfl
    · cases s.backend
      · exact hcall
      · exact hbb
    · exact Respects.assign fun s => hword w s
  · trivial

/-- A relation respected by `LinkSend` is respected by a run of data words. -/
theorem sendBytes_respects {R : State → State → Prop} (rf : ∀ a, R a a) (tr : ∀ a b c, R a b → R b c → R a c)
    (h : ∀ w, Respects R (linkSend w)) (bs : List Byte) : Respects R (sendBytes bs) := by
  induction bs with
  | nil => exact fun s => rf s
  | cons b bs ih => exact Respects.andThen tr (h _) ih

/-- What a pin write can do to fields that neither a latch nor the controller side nor the trace is. -/
theorem pinWrite_respects {R : State → State → Prop}
    (hl : ∀ (s : State) (l : Line) (v : Level), R s (s.takeAnswer.latch l v))
    (hw : ∀ (s : State) (l : Line) (v : Bool), R s (((s.takeAnswer.latch l (levelOf v)).wire l v).emit (.pin l v)))
    (l : Line) (v : Bool) : Respects R (pinWrite l v) := by
  intro s
  unfold pinWrite
  split
  · split
    · exact hw s l v
    · exact hl s l .x
  · trivial

/-- A capability call only takes an answer. -/
theorem capabilityCall_respects {R : State → State → Prop} (h : ∀ s : State, R s s.takeAnswer) :
    Respects R capabilityCall := by
  intro s
  unfold capabilityCall
  split <;> exact h s

/-- `LinkSend` never touches the marks, completed or not. -/
theorem linkSend_keeps_marks (w : LinkWord) : Respects (fun s t => t.marks = s.marks) (linkSend w) :=
  linkSend_respects (R := fun s t => t.marks = s.marks) (fun _ => rfl) (fun _ _ _ h k => Eq.trans k h) (fun _ _ => rfl)
    (fun l v _ _ => pinWrite_respects (R := fun s t => t.marks = s.marks) (fun _ _ _ => rfl)
      (fun s l v => by cases l <;> cases v <;> rfl) l v)
    (capabilityCall_respects (R := fun s t => t.marks = s.marks) fun _ => rfl) (fun _ _ => rfl) w

end Sys2Proof.Machine
end

