-- ==== Sys2Proof/Laws/Requests.lean ====
section
/-! SUPPORT. What the bodies of the requests can do: the words each puts on the link and the marks it leaves. -/

namespace Sys2Proof.Machine

/-- The packed value, field by field (41_color_packer R110). -/
theorem pack565_fields (c : Color) :
    pack565 c = c.r.extractLsb' 3 5 ++ c.g.extractLsb' 2 6 ++ c.b.extractLsb' 3 5 := by
  obtain ⟨r, g, b⟩ := c
  apply BitVec.eq_of_getLsbD_eq
  intro i hi
  refine Eq.trans ?_ (BitVec.getLsbD_append (x := r.extractLsb' 3 5 ++ g.extractLsb' 2 6)
    (y := b.extractLsb' 3 5)).symm
  simp only [pack565, BitVec.getLsbD_append]
  interval_cases i <;> simp

/-- The high byte of the packed value. -/
theorem highByte_pack565 (c : Color) : highByte (pack565 c) = c.r.extractLsb' 3 5 ++ c.g.extractLsb' 5 3 := by
  obtain ⟨r, g, b⟩ := c
  apply BitVec.eq_of_getLsbD_eq
  intro i hi
  refine Eq.trans ?_ (BitVec.getLsbD_append (x := r.extractLsb' 3 5) (y := g.extractLsb' 5 3)).symm
  simp only [highByte, pack565]
  interval_cases i <;> simp

/-- The low byte of the packed value. -/
theorem lowByte_pack565 (c : Color) : lowByte (pack565 c) = c.g.extractLsb' 2 3 ++ c.b.extractLsb' 3 5 := by
  obtain ⟨r, g, b⟩ := c
  apply BitVec.eq_of_getLsbD_eq
  intro i hi
  refine Eq.trans ?_ (BitVec.getLsbD_append (x := g.extractLsb' 2 3) (y := b.extractLsb' 3 5)).symm
  simp only [lowByte, pack565]
  interval_cases i <;> simp

/-- The bytes of a 16-bit pixel (45_pixel_streaming R162). -/
theorem pixel16_pack565 (a : Pix18Align) (c : Color) : (pixel16 (pack565 c)).map dataWord = pixelWords a mode16 c := by
  simp [pixel16, pixelWords, mode16, highByte_pack565, lowByte_pack565]

/-- The bytes of an 18-bit pixel (45_pixel_streaming R163). -/
theorem pix666_words (a : Pix18Align) (c : Color) : (pix666 a c).map dataWord = pixelWords a mode18 c := by
  cases a <;> simp [pix666, pixelWords, mode18]

/-- `StreamPixel` in a mode with pixels. -/
theorem streamPixel_sends (c : Color) {s : State} (ho : s.tpOpen = true)
    (hm : s.colorMode = mode16 ∨ s.colorMode = mode18) :
    Sends id (pixelWords s.params.pix18Align s.colorMode c) s (streamPixel c s) := by
  unfold streamPixel
  rcases hm with h | h
  · rw [if_pos h, h, ← pixel16_pack565 s.params.pix18Align]
    exact sendBytes_sends _ ho
  · rw [if_neg (by rw [h]; decide), if_pos h, h, ← pix666_words]
    exact sendBytes_sends _ ho

/-- `StreamPixel` in 12-bit mode (45_pixel_streaming R165). -/
theorem streamPixel_unsupported (c : Color) {s : State} (hm : s.colorMode = mode12) :
    streamPixel c s = .raised .unsupportedMode s := by
  unfold streamPixel
  rw [if_neg (by rw [hm]; decide), if_neg (by rw [hm]; decide), if_pos hm]

/-- The marks after `n` pixels of CLEAR's loop: `PIXCNT` is the last index. -/
def marksAfterLoop (n : Nat) (m : Marks) : Marks := if n = 0 then m else { m with pixCnt := Config.clearPixels - 1 }

/-- The same body with its words and marks said otherwise. -/
theorem Sends.congr {m m' : Marks → Marks} {ws ws' : List LinkWord} {s : State} {r : Run} (h : Sends m ws s r)
    (hm : m = m') (hw : ws = ws') : Sends m' ws' s r := hm ▸ hw ▸ h

/-- CLEAR's loop with `n` pixels to go. -/
theorem clearLoop_sends (c : Color) (n : Nat) {s : State} (ho : s.tpOpen = true)
    (hm : s.colorMode = mode16 ∨ s.colorMode = mode18) :
    Sends (marksAfterLoop n) (pixelsWords s.params.pix18Align s.colorMode c n) s (clearLoop c n s) := by
  induction n generalizing s with
  | zero => exact Done.nothing s
  | succ n ih =>
    have h := (Sends.marks (fun m => { m with pixCnt := Config.clearPixels - (n + 1) }) s).andThen
      (m' := id ∘ marksAfterLoop n ∘ id) (ws' := pixelWords s.params.pix18Align s.colorMode c ++
        (pixelsWords s.params.pix18Align s.colorMode c n ++ []))
      (q := inOrder [streamPixel c, clearLoop c n]) fun t0 d0 => by
        have o0 := d0.keeps.tpOpen.trans ho
        have m0 : t0.colorMode = s.colorMode := d0.keeps.colorMode
        rw [← m0, ← d0.keeps.params]
        refine (streamPixel_sends c o0 (by rw [m0]; exact hm)).andThen fun t1 d1 => ?_
        have m1 : t1.colorMode = t0.colorMode := d1.keeps.colorMode
        rw [← m1, ← d1.keeps.params]
        exact (ih (d1.keeps.tpOpen.trans o0) (by rw [m1, m0]; exact hm)).andThen fun t2 _ => Sends.nothing t2
    refine Sends.congr h ?_ (by simp [pixelsWords])
    funext m
    by_cases hn : n = 0 <;> simp [marksAfterLoop, hn]

/-- The words of a window and the shadow register (44_window_clear R150). -/
theorem sendWindow_sends (v : Window) {s : State} (ho : s.tpOpen = true) :
    Sends (fun m => { m with lastCmd := some codeRAMWR, win := some v }) (windowWords v) s (sendWindow v s) := by
  have h := (sendCmd_sends codeCASET ho).andThen
    (q := inOrder [sendBytes (coordinate v.xs ++ coordinate v.xe), sendCmd codeRASET,
      sendBytes (coordinate v.ys ++ coordinate v.ye), sendCmd codeRAMWR, assign (fun s => { s with win := some v })])
    fun t1 d1 =>
    have o1 := d1.keeps.tpOpen.trans ho
    (sendBytes_sends (coordinate v.xs ++ coordinate v.xe) o1).andThen fun t2 d2 =>
    have o2 := d2.keeps.tpOpen.trans o1
    (sendCmd_sends codeRASET o2).andThen fun t3 d3 =>
    have o3 := d3.keeps.tpOpen.trans o2
    (sendBytes_sends (coordinate v.ys ++ coordinate v.ye) o3).andThen fun t4 d4 =>
    have o4 := d4.keeps.tpOpen.trans o3
    (sendCmd_sends codeRAMWR o4).andThen fun t5 _ =>
    (Sends.marks (fun m => { m with win := some v }) t5).andThen fun t6 _ => Sends.nothing t6
  exact Sends.congr h rfl rfl

/-- SET_WINDOW's body with all four values in range. -/
theorem setWindowBody_sends {x y w h : Half} (hr : (windowSums x y w h).inRange = true) {s : State}
    (ho : s.tpOpen = true) :
    Sends (fun m => { m with lastCmd := some codeRAMWR, win := some (windowSums x y w h).bytes })
      (windowWords (windowSums x y w h).bytes) s (setWindowBody x y w h s) := by
  unfold setWindowBody
  rw [inOrder_cons, require_pass (c := fun _ => (windowSums x y w h).inRange) hr, Run.ok_andThen, inOrder_cons]
  exact Sends.congr ((sendWindow_sends _ ho).andThen fun t _ => Sends.nothing t) rfl (by simp)

/-- SET_WINDOW's body with a value out of range (44_window_clear R151). -/
theorem setWindowBody_rejects {x y w h : Half} (hr : (windowSums x y w h).inRange = false) (s : State) :
    setWindowBody x y w h s = .raised .invalidParam s := by
  unfold setWindowBody
  rw [inOrder_cons, require_fail (c := fun _ => (windowSums x y w h).inRange) hr, Run.raised_andThen]

/-- The marks after CLEAR. -/
def marksAfterClear (m : Marks) : Marks :=
  { m with lastCmd := some codeRAMWR, win := some ⟨2, 131, 1, 162⟩, pixCnt := 0 }

/-- CLEAR's body in a mode with pixels (44_window_clear R152). -/
theorem clearBody_sends (c : Color) {s : State} (ho : s.tpOpen = true)
    (hm : s.colorMode = mode16 ∨ s.colorMode = mode18) :
    Sends marksAfterClear (clearWords s.params.pix18Align s.colorMode c) s (clearBody c s) := by
  unfold clearBody
  have h12 : (fun s : State => s.colorMode != mode12) s = true := by rcases hm with h | h <;> simp only [h] <;> decide
  rw [inOrder_cons, require_pass h12, Run.ok_andThen]
  have hb : (windowSums 0 0 (BitVec.ofNat 16 Config.panelW) (BitVec.ofNat 16 Config.panelH)).bytes =
    ⟨2, 131, 1, 162⟩ := by decide
  have hs := setWindowBody_sends (x := 0) (y := 0) (w := BitVec.ofNat 16 Config.panelW)
    (h := BitVec.ofNat 16 Config.panelH) (by decide) ho
  rw [hb] at hs
  have h := hs.andThen (m' := id ∘ (fun m => { m with pixCnt := 0 }) ∘ marksAfterLoop Config.clearPixels)
    (ws' := pixelsWords s.params.pix18Align s.colorMode c Config.clearPixels ++ ([] ++ []))
    (q := inOrder [clearLoop c Config.clearPixels, assign (fun s => { s with pixCnt := 0 })]) fun t1 d1 => by
      have m1 : t1.colorMode = s.colorMode := d1.keeps.colorMode
      rw [← m1, ← d1.keeps.params]
      exact (clearLoop_sends c Config.clearPixels (d1.keeps.tpOpen.trans ho) (by rw [m1]; exact hm)).andThen
        fun t2 _ => (Sends.marks (fun m => { m with pixCnt := 0 }) t2).andThen fun t3 _ => Sends.nothing t3
  refine Sends.congr h ?_ ?_
  · funext m
    simp [marksAfterLoop, marksAfterClear, Config.clearPixels, Config.panelW, Config.panelH]
  · rw [List.append_nil, List.append_nil]
    rfl

/-- CLEAR's body in 12-bit mode (44_window_clear R152). -/
theorem clearBody_unsupported (c : Color) {s : State} (hm : s.colorMode = mode12) :
    clearBody c s = .raised .unsupportedMode s := by
  unfold clearBody
  rw [inOrder_cons, require_fail (by simp [hm]), Run.raised_andThen]

/-- The two words of an orientation and `ORIENT` (46_orientation R170). -/
theorem sendOrientation_sends (o : Orientation) {s : State} (ho : s.tpOpen = true) :
    Sends (fun m => { m with lastCmd := some codeMADCTR, orient := o })
      [commandWord codeMADCTR, dataWord (madctrByte s.params o)] s (sendOrientation o s) := by
  have h := (sendCmd_sends codeMADCTR ho).andThen (m' := id ∘ (fun m => { m with orient := o }) ∘ id)
    (ws' := [dataWord (madctrByte s.params o)] ++ ([] ++ []))
    (q := inOrder [(fun s => sendData (madctrByte s.params o) s), assign (fun s => { s with orient := o })])
    fun t1 d1 => by
      rw [← d1.keeps.params]
      exact (sendData_sends (madctrByte t1.params o) (d1.keeps.tpOpen.trans ho)).andThen fun t2 _ =>
        (Sends.marks (fun m => { m with orient := o }) t2).andThen fun t3 _ => Sends.nothing t3
  exact Sends.congr h rfl rfl

/-- A request that is served only in `READY` runs its body there. -/
theorem ready_runs {s : State} (h : s.phase = .ready) (ps : List Proc) :
    inOrder (requireReady :: ps) s = inOrder ps s := by
  simp [requireReady, require, h]

/-- Outside `READY` such a request is rejected before anything is sent (60_exceptions R205). -/
theorem notReady_raises {s : State} (h : s.phase ≠ .ready) (ps : List Proc) :
    inOrder (requireReady :: ps) s = .raised .notReady s := by
  simp [requireReady, require, h]

/-- One statement alone. -/
theorem inOrder_single (p : Proc) (s : State) : inOrder [p] s = p s := by
  simp only [inOrder_cons]
  cases p s <;> rfl

/-- A completed body, answered OK, is a request that sent its words. -/
theorem Done.sent {m : Marks → Marks} {ws : List LinkWord} {s t : State} (h : Done m ws s t) :
    Sent ws (s.withMarks (m s.marks)) (t.respond codeOK) := by
  have k := h.keeps
  have e := h.marks
  refine ⟨?_, rfl, h.trace, h.lines, h.bitCnt⟩
  have e1 : t.orient = (m s.marks).orient := congrArg Marks.orient e
  have e2 : t.stepNo = (m s.marks).stepNo := congrArg Marks.stepNo e
  have e3 : t.pixCnt = (m s.marks).pixCnt := congrArg Marks.pixCnt e
  have e4 : t.lastCmd = (m s.marks).lastCmd := congrArg Marks.lastCmd e
  have e5 : t.win = (m s.marks).win := congrArg Marks.win e
  unfold SameButLink
  apply State.ext <;> simp only [State.respond, State.withMarks]
  · exact k.backend
  · exact k.ids
  · exact k.colorMode
  · exact e1
  · exact k.fg
  · exact k.bg
  · exact k.phase
  · exact e2
  · exact e3
  · exact k.err
  · exact k.tpOpen
  · exact e4
  · exact e5
  · exact k.straps
  · exact k.params
  · exact k.host

end Sys2Proof.Machine
end

