-- ==== Sys2Proof/Laws/Trace.lean ====
section
/-! SUPPORT. The words and the last command of a trace (00_scope R11, 10_state R34), and the data line after words
(20_memory R55). -/

namespace Sys2Proof.Machine

@[simp] theorem wordsOf_nil : wordsOf [] = [] := rfl

@[simp] theorem wordsOf_append (a b : List Event) : wordsOf (a ++ b) = wordsOf a ++ wordsOf b := by
  simp [wordsOf]

/-- The pin writes of a word hold no word. -/
theorem word_of_mem_wordPins {w : LinkWord} {e : Event} (h : e ∈ wordPins w) : e.word = none := by
  have hb : ∀ n, e ∈ bitsPins w n → e.word = none := by
    intro n
    induction n with
    | zero => intro h; cases h
    | succ n ih =>
      intro h
      rcases List.mem_append.1 h with h | h
      · simp only [bitPins, List.mem_cons, List.not_mem_nil, or_false] at h
        rcases h with rfl | rfl | rfl <;> rfl
      · exact ih h
  simp only [wordPins, List.mem_cons, List.mem_append, List.not_mem_nil, or_false] at h
  rcases h with rfl | h | rfl
  · rfl
  · exact hb 9 h
  · rfl

/-- The events of a word hold that word. -/
@[simp] theorem wordsOf_wordEvents (k : Backend) (w : LinkWord) : wordsOf (wordEvents k w) = [w] := by
  cases k with
  | hwSerial => rfl
  | bitBang =>
    have h : wordsOf (wordPins w) = [] := List.filterMap_eq_nil_iff.2 fun _ h => word_of_mem_wordPins h
    show wordsOf (wordPins w ++ [.w9 w]) = [w]
    rw [wordsOf_append, h]
    rfl

/-- The events of several words hold those words. -/
@[simp] theorem wordsOf_wordsEvents (k : Backend) (ws : List LinkWord) : wordsOf (wordsEvents k ws) = ws := by
  induction ws with
  | nil => rfl
  | cons w ws ih => rw [wordsEvents_cons, wordsOf_append, wordsOf_wordEvents, ih]; rfl

/-- A proper part of one word's events holds no word. -/
theorem wordsOf_take_wordEvents {k : Backend} {w : LinkWord} {n : Nat} (h : n < (wordEvents k w).length) :
    wordsOf ((wordEvents k w).take n) = [] := by
  refine List.filterMap_eq_nil_iff.2 fun e he => ?_
  cases k with
  | hwSerial =>
    have hn : n = 0 := by simp [wordEvents] at h; omega
    subst hn
    simp at he
  | bitBang =>
    have hn : n ≤ (wordPins w).length := by simp [wordEvents] at h; omega
    simp only [wordEvents] at he
    rw [List.take_append_of_le_length hn] at he
    exact word_of_mem_wordPins (List.mem_of_mem_take he)

/-- The last command of a trace is that of its later part, if there is one. -/
theorem lastCommand_append (a b : List Event) : lastCommand (a ++ b) = (lastCommand b).or (lastCommand a) := by
  simp [lastCommand, List.getLast?_append]

/-- Events that hold no word leave the last command. -/
theorem lastCommand_append_of_no_word {a b : List Event} (h : wordsOf b = []) : lastCommand (a ++ b) = lastCommand a := by
  have hb : lastCommand b = none := by simp [lastCommand, h]
  rw [lastCommand_append, hb]
  rfl

/-- A command word is the last command of its events. -/
theorem lastCommand_command (k : Backend) (b : Byte) : lastCommand (wordEvents k (commandWord b)) = some b := by
  simp [lastCommand, commandOf]

/-- A data word is no command. -/
theorem lastCommand_data (k : Backend) (b : Byte) : lastCommand (wordEvents k (dataWord b)) = none := by
  simp [lastCommand, commandOf]

/-- The bit-banged data line holds bit 0 of the last word, the other two word lines idle high (20_memory R55). -/
theorem linesAfterWords_bitBang {ws : List LinkWord} {w : LinkWord} (h : ws.getLast? = some w) (ls : Lines) :
    linesAfterWords .bitBang ws ls = { ls with cs := .one, sck := .one, sda := levelOf (w.getLsbD 0) } := by
  induction ws generalizing ls with
  | nil => cases h
  | cons v ws ih =>
    cases ws with
    | nil => cases h; rfl
    | cons u ws => exact ih (by simpa using h) (linesAfterWord .bitBang v ls)

/-- The serial backend drives no line with a word (20_memory R52). -/
theorem linesAfterWords_hwSerial (ws : List LinkWord) (ls : Lines) : linesAfterWords .hwSerial ws ls = ls := by
  induction ws generalizing ls with
  | nil => rfl
  | cons w ws ih => exact ih ls

/-- `LASTCMD` mirrors the trace after a body, if it did before (10_state R34). -/
def Mirrors (s t : State) : Prop := s.lastCmd = lastCommand s.trace → t.lastCmd = lastCommand t.trace

/-- What one word leaves of `LASTCMD` and the trace: all of the word's events, or events that hold no word. -/
theorem linkSend_trace (w : LinkWord) (s : State) : (linkSend w s).Ends
    (fun t => t.lastCmd = s.lastCmd ∧ t.trace = s.trace ++ wordEvents s.backend w)
    (fun _ t => t.lastCmd = s.lastCmd ∧ ∃ es, wordsOf es = [] ∧ t.trace = s.trace ++ es) := by
  by_cases ho : s.tpOpen = true
  · have h := linkSend_sends w ho
    have hk := linkSend_keeps_marks w s
    cases hr : linkSend w s with
    | stopped f => trivial
    | ok t =>
      rw [hr] at h hk
      have hd : Done id [w] s t := h
      exact ⟨congrArg Marks.lastCmd hk, by rw [hd.trace]; simp [wordsEvents]⟩
    | raised e t =>
      rw [hr] at h hk
      obtain ⟨n, hn, ht⟩ := h.2.trace
      simp only [wordsEvents, List.flatMap_cons, List.flatMap_nil, List.append_nil] at hn ht
      exact ⟨congrArg Marks.lastCmd hk, _, wordsOf_take_wordEvents hn, ht⟩
  · unfold linkSend
    rw [if_neg ho]
    trivial

/-- A data word leaves `LASTCMD` mirroring the trace. -/
theorem sendData_mirrors (b : Byte) : Respects Mirrors (sendData b) := by
  intro s
  have h := linkSend_trace (dataWord b) s
  unfold sendData
  cases hr : linkSend (dataWord b) s with
  | stopped f => trivial
  | ok t =>
    rw [hr] at h
    intro hs
    rw [h.1, h.2, lastCommand_append, lastCommand_data, hs]
    rfl
  | raised e t =>
    rw [hr] at h
    obtain ⟨h1, es, h2, h3⟩ := h
    intro hs
    rw [h1, h3, lastCommand_append_of_no_word h2, hs]

/-- A command word and its record leave `LASTCMD` mirroring the trace. -/
theorem sendCmd_mirrors (b : Byte) : Respects Mirrors (sendCmd b) := by
  intro s
  have h := linkSend_trace (commandWord b) s
  unfold sendCmd
  rw [inOrder_cons]
  cases hr : linkSend (commandWord b) s with
  | stopped f => trivial
  | ok t =>
    rw [hr] at h
    intro _
    show some b = lastCommand t.trace
    rw [h.2, lastCommand_append, lastCommand_command]
    rfl
  | raised e t =>
    rw [hr] at h
    obtain ⟨h1, es, h2, h3⟩ := h
    intro hs
    rw [h1, h3, lastCommand_append_of_no_word h2, hs]

/-- A pin write holds no word and leaves `LASTCMD`. -/
theorem pinWrite_mirrors (l : Line) (v : Bool) : Respects Mirrors (pinWrite l v) :=
  pinWrite_respects (R := Mirrors) (fun _ _ _ hs => hs) (fun s l v hs => by
    have ht : (((s.takeAnswer.latch l (levelOf v)).wire l v).emit (.pin l v)).trace = s.trace ++ [.pin l v] := by
      simp [State.trace]
    rw [ht, lastCommand_append_of_no_word (by rfl), ← hs]
    simp) l v

/-- A hold leaves no word and leaves `LASTCMD`. -/
theorem delay_mirrors (n : Nat) : Respects Mirrors (delay n) := by
  intro s
  unfold delay
  split
  · exact fun hs => hs
  · intro hs
    have ht : (({ s with owed := s.owed - n } : State).emit (.wait n)).trace = s.trace ++ [.wait n] := by
      simp [State.trace]
    rw [ht, lastCommand_append_of_no_word (by rfl), ← hs]
    rfl

end Sys2Proof.Machine
end

