-- ==== Sys2Proof/Laws/Keep.lean ====
section
/-! SUPPORT. What every body keeps, completed or cut short: a relation that each of the statements bodies are made of respects
is respected by every body; so is one that each of the block's small writes respects. -/

namespace Sys2Proof.Machine

/-- A relation that every statement of a request's body respects, except the writes of `STEP` and `ORIENT`. -/
structure Composes (R : State → State → Prop) : Prop where
  refl : ∀ s, R s s
  trans : ∀ a b c, R a b → R b c → R a c
  sendCmd : ∀ b, Respects R (sendCmd b)
  sendData : ∀ b, Respects R (sendData b)
  pinWrite : ∀ l v, l ≠ .bl → Respects R (pinWrite l v)
  delay : ∀ n, Respects R (delay n)
  win : ∀ s k, R s { s with win := k }
  pixCnt : ∀ s k, R s { s with pixCnt := k }

variable {R : State → State → Prop}

theorem Composes.inOrder (C : Composes R) {ps : List Proc} (h : ∀ p ∈ ps, Respects R p) : Respects R (inOrder ps) :=
  Respects.inOrder C.refl C.trans h

theorem Composes.sendBytes (C : Composes R) (bs : List Byte) : Respects R (sendBytes bs) := by
  induction bs with
  | nil => exact fun s => C.refl s
  | cons b bs ih => exact Respects.andThen C.trans (C.sendData b) ih

theorem Composes.streamPixel (C : Composes R) (c : Color) : Respects R (streamPixel c) := by
  intro s
  unfold Machine.streamPixel
  split
  · exact C.sendBytes _ s
  · split
    · exact C.sendBytes _ s
    · split
      · exact C.refl s
      · trivial

theorem Composes.sendWindow (C : Composes R) (v : Window) : Respects R (sendWindow v) :=
  C.inOrder (by
    simp only [List.forall_mem_cons]
    exact ⟨C.sendCmd _, C.sendBytes _, C.sendCmd _, C.sendBytes _, C.sendCmd _, Respects.assign fun s => C.win s _,
      by simp⟩)

theorem Composes.setWindowBody (C : Composes R) (x y w h : Half) : Respects R (setWindowBody x y w h) :=
  C.inOrder (by
    simp only [List.forall_mem_cons]
    exact ⟨Respects.require C.refl _ _, C.sendWindow _, by simp⟩)

theorem Composes.clearLoop (C : Composes R) (c : Color) (n : Nat) : Respects R (clearLoop c n) := by
  induction n with
  | zero => exact fun s => C.refl s
  | succ n ih =>
    refine C.inOrder ?_
    simp only [List.forall_mem_cons]
    exact ⟨Respects.assign fun s => C.pixCnt s _, C.streamPixel c, ih, by simp⟩

theorem Composes.clearBody (C : Composes R) (c : Color) : Respects R (clearBody c) :=
  C.inOrder (by
    simp only [List.forall_mem_cons]
    exact ⟨Respects.require C.refl _ _, C.setWindowBody _ _ _ _, C.clearLoop c _,
      Respects.assign fun s => C.pixCnt s _, by simp⟩)

theorem Composes.sendOrientation (C : Composes R) {o : Orientation} (ho : ∀ s, R s { s with orient := o }) :
    Respects R (sendOrientation o) :=
  C.inOrder (by
    simp only [List.forall_mem_cons]
    exact ⟨C.sendCmd _, fun s => C.sendData _ s, Respects.assign ho, by simp⟩)

theorem Composes.setOrientationBody (C : Composes R) (ho : ∀ s o, R s { s with orient := o }) (d : Half) :
    Respects R (setOrientationBody d) := by
  unfold Machine.setOrientationBody
  split
  · exact C.sendOrientation fun s => ho s _
  · exact fun s => C.refl s

theorem Composes.powerReset (C : Composes R) : Respects R powerReset := by
  intro s
  unfold Machine.powerReset
  cases s.backend
  · refine C.inOrder ?_ s
    simp only [List.forall_mem_cons]
    exact ⟨C.pinWrite _ _ (by simp), C.delay _, C.pinWrite _ _ (by simp), C.delay _, by simp⟩
  · refine C.inOrder ?_ s
    simp only [List.forall_mem_cons]
    exact ⟨C.pinWrite _ _ (by simp), C.pinWrite _ _ (by simp), C.delay _, C.pinWrite _ _ (by simp), C.pinWrite _ _ (by simp),
      C.delay _, C.pinWrite _ _ (by simp), C.pinWrite _ _ (by simp), by simp⟩

/-- A relation that every small write of a request's body respects, except those of `STEP` and `ORIENT`. -/
structure Tolerates (R : State → State → Prop) : Prop where
  refl : ∀ s, R s s
  trans : ∀ a b c, R a b → R b c → R a c
  bitCnt : ∀ s n, R s { s with bitCnt := n }
  lost : ∀ (s : State) l, l ≠ .bl → s.configured l = true → R s (s.takeAnswer.latch l .x)
  pin : ∀ (s : State) l v, l ≠ .bl → s.configured l = true → R s (((s.takeAnswer.latch l (levelOf v)).wire l v).emit (.pin l v))
  answer : ∀ s : State, R s s.takeAnswer
  word : ∀ w (s : State), R s ((s.deliver w).emit (.w9 w))
  wait : ∀ n (s : State), R s (({ s with owed := s.owed - n }).emit (.wait n))
  lastCmd : ∀ s k, R s { s with lastCmd := k }
  win : ∀ s k, R s { s with win := k }
  pixCnt : ∀ s k, R s { s with pixCnt := k }

theorem Tolerates.pinWrite (T : Tolerates R) {l : Line} (hl : l ≠ .bl) (v : Bool) : Respects R (pinWrite l v) := by
  intro s
  unfold Machine.pinWrite
  split
  · rename_i hc
    split
    · exact T.pin s l v hl hc
    · exact T.lost s l hl hc
  · trivial

theorem Tolerates.capabilityCall (T : Tolerates R) : Respects R capabilityCall :=
  capabilityCall_respects T.answer

theorem Tolerates.linkSend (T : Tolerates R) (w : LinkWord) : Respects R (linkSend w) :=
  linkSend_respects T.refl T.trans T.bitCnt (fun _ v hl _ => T.pinWrite hl v) T.capabilityCall T.word w

theorem Tolerates.inOrder (T : Tolerates R) {ps : List Proc} (h : ∀ p ∈ ps, Respects R p) : Respects R (inOrder ps) :=
  Respects.inOrder T.refl T.trans h

theorem Tolerates.sendCmd (T : Tolerates R) (b : Byte) : Respects R (sendCmd b) :=
  T.inOrder (by simp only [List.forall_mem_cons]; exact ⟨T.linkSend _, Respects.assign fun s => T.lastCmd s _, by simp⟩)

theorem Tolerates.sendData (T : Tolerates R) (b : Byte) : Respects R (sendData b) := T.linkSend _

theorem Tolerates.delay (T : Tolerates R) (n : Nat) : Respects R (delay n) := by
  intro s
  unfold Machine.delay
  split
  · exact T.refl s
  · exact T.wait n s

/-- The small writes make up the statements. -/
theorem Tolerates.composes (T : Tolerates R) : Composes R :=
  { refl := T.refl, trans := T.trans, sendCmd := T.sendCmd, sendData := T.sendData,
    pinWrite := fun _ v h => T.pinWrite h v, delay := T.delay, win := T.win, pixCnt := T.pixCnt }

/-- No body writes `STEP` (10_state R29). -/
theorem tolerates_stepNo : Tolerates fun s t => t.stepNo = s.stepNo :=
  { refl := fun _ => rfl, trans := fun _ _ _ h k => Eq.trans k h, bitCnt := fun _ _ => rfl, lost := fun _ _ _ _ => rfl,
    pin := fun s l v _ _ => by simp, answer := fun _ => rfl, word := fun _ _ => rfl, wait := fun _ _ => rfl,
    lastCmd := fun _ _ => rfl, win := fun _ _ => rfl, pixCnt := fun _ _ => rfl }

/-- No body writes `L_BL` (10_state R33). -/
theorem tolerates_backlight : Tolerates fun s t => t.lines.bl = s.lines.bl :=
  { refl := fun _ => rfl, trans := fun _ _ _ h k => Eq.trans k h, bitCnt := fun _ _ => rfl,
    lost := fun s l h _ => by cases l <;> simp [Lines.set] at h ⊢,
    pin := fun s l v h _ => by cases l <;> simp [Lines.set] at h ⊢,
    answer := fun _ => rfl, word := fun _ _ => rfl, wait := fun _ _ => rfl,
    lastCmd := fun _ _ => rfl, win := fun _ _ => rfl, pixCnt := fun _ _ => rfl }

/-- With `HWSERIAL` no body drives `CS`, `SCK` or `SDA` (10_state R33). -/
theorem tolerates_serialLines : Tolerates fun s t => t.backend = s.backend ∧ (s.backend = .hwSerial →
    t.lines.cs = s.lines.cs ∧ t.lines.sck = s.lines.sck ∧ t.lines.sda = s.lines.sda) := by
  constructor
  case trans =>
    intro a b c h k
    refine ⟨k.1.trans h.1, fun e => ?_⟩
    have h2 := h.2 e
    have k2 := k.2 (h.1.trans e)
    exact ⟨k2.1.trans h2.1, k2.2.1.trans h2.2.1, k2.2.2.trans h2.2.2⟩
  case lost =>
    intro s l h hc
    refine ⟨by simp, fun e => ?_⟩
    cases l <;> simp [State.configured, configuredLines, e, Lines.set] at h hc ⊢
  case pin =>
    intro s l v h hc
    refine ⟨by simp, fun e => ?_⟩
    cases l <;> simp [State.configured, configuredLines, e, Lines.set] at h hc ⊢
  all_goals intros; exact ⟨rfl, fun _ => ⟨rfl, rfl, rfl⟩⟩

/-- `ORIENT` at 0 degrees stays there but for an orientation's own write (10_state R24). -/
theorem tolerates_upright : Tolerates fun s t => s.orient = .deg0 → t.orient = .deg0 :=
  { refl := fun _ h => h, trans := fun _ _ _ h k e => k (h e), bitCnt := fun _ _ h => h, lost := fun _ _ _ _ h => h,
    pin := fun s l v _ _ h => by simpa using h, answer := fun _ h => h, word := fun _ _ h => h, wait := fun _ _ h => h,
    lastCmd := fun _ _ h => h, win := fun _ _ h => h, pixCnt := fun _ _ h => h }

/-- What no body writes, whatever its outcome. -/
theorem tolerates_setup : Tolerates KeepsSetup := by
  constructor
  case refl => exact KeepsSetup.refl
  case trans => exact fun _ _ _ h k => h.trans k
  all_goals intros; constructor <;> simp

/-- `LASTCMD` mirrors the trace after every body, completed or cut short (10_state R34). -/
theorem composes_mirrors : Composes Mirrors :=
  { refl := fun _ h => h, trans := fun _ _ _ h k hs => k (h hs), sendCmd := sendCmd_mirrors, sendData := sendData_mirrors,
    pinWrite := fun l v _ => pinWrite_mirrors l v, delay := delay_mirrors, win := fun _ _ h => h,
    pixCnt := fun _ _ h => h }

end Sys2Proof.Machine
end

