-- ==== Sys2Proof/Laws/Init.lean ====
section
/-! SUPPORT. What INIT's steps can do: each leaves all its events, or is cut short by a transport failure after a proper part
of them. -/

namespace Sys2Proof.Machine

/-- A statement list that left the events `es`, changed the marks by `m` and the latches by `f`. -/
structure Left (m : Marks → Marks) (f : Lines → Lines) (es : List Event) (s t : State) : Prop where
  keeps : KeepsSetup s t
  marks : t.marks = m s.marks
  trace : t.trace = s.trace ++ es
  lines : t.lines = f s.lines
  bitCnt : t.bitCnt = if s.backend = .bitBang ∧ wordsOf es ≠ [] then 0 else s.bitCnt
  answers : t.answers <:+ s.answers

/-- What a statement list with the events `es` can end in. -/
def Emits (m : Marks → Marks) (f : Lines → Lines) (es : List Event) (s : State) : Run → Prop
  | .ok t => Left m f es s t
  | .raised e t => e = .transport ∧ CutShort es s t
  | .stopped _ => False

/-- Sequencing. -/
theorem Emits.andThen {m m' : Marks → Marks} {f f' : Lines → Lines} {es es' : List Event} {s : State} {r : Run}
    {q : Proc} (h : Emits m f es s r) (k : ∀ t, Left m f es s t → Emits m' f' es' t (q t)) :
    Emits (m' ∘ m) (f' ∘ f) (es ++ es') s (r.andThen q) := by
  cases r with
  | stopped f => exact h.elim
  | raised e t =>
    obtain ⟨rfl, hc⟩ := h
    obtain ⟨n, hn, ht⟩ := hc.trace
    refine ⟨rfl, hc.keeps, ⟨n, by simp; omega, ?_⟩, hc.answers⟩
    rw [ht, List.take_append_of_le_length (by omega)]
  | ok t =>
    have hd : Left m f es s t := h
    have hk := k t hd
    simp only [Run.ok_andThen]
    cases hq : q t with
    | stopped f => rw [hq] at hk; exact hk.elim
    | ok u =>
      rw [hq] at hk
      have kd : Left m' f' es' t u := hk
      exact ⟨hd.keeps.trans kd.keeps, by rw [kd.marks, hd.marks]; rfl, by rw [kd.trace, hd.trace, List.append_assoc],
        by rw [kd.lines, hd.lines]; rfl, by
          rw [kd.bitCnt, hd.bitCnt, hd.keeps.backend, wordsOf_append]
          by_cases hb : s.backend = .bitBang <;> by_cases h1 : wordsOf es = [] <;> by_cases h2 : wordsOf es' = [] <;>
            simp [hb, h1, h2],
        kd.answers.trans hd.answers⟩
    | raised e u =>
      rw [hq] at hk
      obtain ⟨rfl, hc⟩ := hk
      obtain ⟨n, hn, ht⟩ := hc.trace
      refine ⟨rfl, hd.keeps.trans hc.keeps, ⟨es.length + n, by simp; omega, ?_⟩, hd.answers.subset hc.answers⟩
      rw [ht, hd.trace, List.take_length_add_append, List.append_assoc]

/-- The same list with its effect said otherwise. -/
theorem Emits.congr {m m' : Marks → Marks} {f f' : Lines → Lines} {es es' : List Event} {s : State} {r : Run}
    (h : Emits m f es s r) (hm : m s.marks = m' s.marks) (hf : f s.lines = f' s.lines) (he : es = es') :
    Emits m' f' es' s r := by
  subst he
  cases r with
  | ok t => exact ⟨h.keeps, h.marks.trans hm, h.trace, h.lines.trans hf, h.bitCnt, h.answers⟩
  | raised e t => exact h
  | stopped g => exact h

/-- With no failure ahead it completes. -/
theorem Emits.completes {m : Marks → Marks} {f : Lines → Lines} {es : List Event} {s : State} {r : Run}
    (h : Emits m f es s r) (hn : NoFailure s) : ∃ t, r = .ok t ∧ Left m f es s t := by
  cases r with
  | ok t => exact ⟨t, rfl, h⟩
  | raised e t => exact absurd (hn _ h.2.answers) (by simp)
  | stopped f => exact h.elim

/-- Sending words leaves their events. -/
theorem Sends.emits {m : Marks → Marks} {ws : List LinkWord} {s : State} {r : Run} (h : Sends m ws s r) :
    Emits m (linesAfterWords s.backend ws) (wordsEvents s.backend ws) s r := by
  cases r with
  | ok t =>
    have hd : Done m ws s t := h
    exact ⟨hd.keeps, hd.marks, hd.trace, hd.lines, by rw [wordsOf_wordsEvents]; exact hd.bitCnt, hd.answers⟩
  | raised e t => exact h
  | stopped f => exact h.elim

/-- Nothing done. -/
theorem Emits.nothing (s : State) : Emits id id [] s (.ok s) :=
  ⟨KeepsSetup.refl s, rfl, by simp, rfl, by simp, List.suffix_refl _⟩

/-- A write of marks. -/
theorem Emits.marks (m : Marks → Marks) (s : State) : Emits m id [] s (.ok (s.withMarks (m s.marks))) := by
  refine ⟨?_, rfl, by simp [State.trace, State.withMarks], rfl, by simp [State.withMarks],
    List.suffix_refl _⟩
  constructor <;> rfl

/-- One write of a configured line (20_memory R73). -/
theorem pinWrite_emits {s : State} (l : Line) (v : Bool) (hc : s.configured l = true) :
    Emits id (Lines.set l (levelOf v)) [.pin l v] s (pinWrite l v s) := by
  rcases pinWrite_cases v hc with ⟨_, h⟩ | ⟨hf, h⟩
  · rw [h]
    have ha : (((s.takeAnswer.latch l (levelOf v)).wire l v).emit (.pin l v)).answers = s.answers.tail := by simp
    refine ⟨?_, by simp [State.marks], by simp [State.trace], by simp, by simp [wordsOf, Event.word], ha ▸ List.tail_suffix _⟩
    constructor <;> simp
  · rw [h]
    refine ⟨rfl, ?_, ⟨0, by simp, by simp⟩, failure_ahead hf⟩
    constructor <;> rfl

/-- `Delay(n)` (20_memory R72). -/
theorem delay_emits (n : Nat) (s : State) : Emits id id (sleepOutWait n) s (delay n s) := by
  unfold delay sleepOutWait
  split
  · exact Emits.nothing s
  · refine ⟨?_, rfl, by simp [State.trace, State.emit], rfl, by simp [State.emit, wordsOf, Event.word], List.suffix_refl _⟩
    constructor <;> rfl

/-- `Delay(n)` with a time to hold. -/
theorem delay_emits_pos {n : Nat} (h : n ≠ 0) (s : State) : Emits id id [.wait n] s (delay n s) :=
  (delay_emits n s).congr rfl rfl (by simp [sleepOutWait, h])

/-- `RST` is configured on either backend (43_sequencer R132). -/
theorem configured_rst {s : State} (ho : s.tpOpen = true) : s.configured .rst = true := by
  cases hb : s.backend <;> simp [State.configured, configuredLines, ho, hb]

/-- The latches after power-reset (43_sequencer R133, R134). -/
def linesAfterPowerReset (k : Backend) (ls : Lines) : Lines :=
  match k with
  | .bitBang => { ls with cs := .one, sck := .one, sda := .zero, rst := .one }
  | .hwSerial => { ls with rst := .one }

/-- Power-reset (43_sequencer R133, R134). -/
theorem powerReset_emits {s : State} (ho : s.tpOpen = true) :
    Emits id (linesAfterPowerReset s.backend) (powerResetEvents s.backend) s (powerReset s) := by
  unfold powerReset
  cases hb : s.backend with
  | hwSerial =>
    have h := (pinWrite_emits .rst false (configured_rst ho)).andThen
      (q := inOrder [delay Config.tPwrLowMs, pinWrite .rst true, delay Config.tPwrHighMs]) fun t1 d1 =>
      have o1 := d1.keeps.tpOpen.trans ho
      (delay_emits_pos (n := Config.tPwrLowMs) (by decide) t1).andThen fun t2 d2 =>
      have o2 := d2.keeps.tpOpen.trans o1
      (pinWrite_emits .rst true (configured_rst o2)).andThen fun t3 _ =>
      (delay_emits_pos (n := Config.tPwrHighMs) (by decide) t3).andThen fun t4 _ => Emits.nothing t4
    exact h.congr rfl rfl rfl
  | bitBang =>
    have conf : ∀ {t : State}, t.tpOpen = true → t.backend = s.backend → ∀ l, t.configured l = true :=
      fun h1 h2 l => configured_of_bitBang h1 (h2.trans hb) l
    have h := (pinWrite_emits .cs false (conf ho rfl _)).andThen
      (q := inOrder [pinWrite .rst false, delay Config.tPwrLowMs, pinWrite .cs true, pinWrite .rst true,
        delay Config.tPwrHighMs, pinWrite .sda false, pinWrite .sck true]) fun t1 d1 =>
      have k1 := d1.keeps
      (pinWrite_emits .rst false (conf (k1.tpOpen.trans ho) k1.backend _)).andThen fun t2 d2 =>
      have k2 := k1.trans d2.keeps
      (delay_emits_pos (n := Config.tPwrLowMs) (by decide) t2).andThen fun t3 d3 =>
      have k3 := k2.trans d3.keeps
      (pinWrite_emits .cs true (conf (k3.tpOpen.trans ho) k3.backend _)).andThen fun t4 d4 =>
      have k4 := k3.trans d4.keeps
      (pinWrite_emits .rst true (conf (k4.tpOpen.trans ho) k4.backend _)).andThen fun t5 d5 =>
      have k5 := k4.trans d5.keeps
      (delay_emits_pos (n := Config.tPwrHighMs) (by decide) t5).andThen fun t6 d6 =>
      have k6 := k5.trans d6.keeps
      (pinWrite_emits .sda false (conf (k6.tpOpen.trans ho) k6.backend _)).andThen fun t7 d7 =>
      have k7 := k6.trans d7.keeps
      (pinWrite_emits .sck true (conf (k7.tpOpen.trans ho) k7.backend _)).andThen fun t8 _ => Emits.nothing t8
    exact h.congr rfl rfl rfl

/-- The bodies of INIT's steps in their order, as run (43_sequencer R130). -/
def initStepBody : Fin 8 → Proc
  | 0 => fun s => .ok s
  | 1 => powerReset
  | 2 => inOrder [sendCmd codeSWRESET, delay Config.tSwresetMs]
  | 3 => inOrder [sendCmd codeCOLMOD, fun s => sendData s.colorMode s]
  | 4 => inOrder [sendCmd codeSLPOUT, fun s => delay s.params.slpoutMs s]
  | 5 => sendCmd codeDISPON
  | 6 => fun s => sendOrientation s.orient s
  | 7 => fun s => clearBody s.bg s

/-- INIT's steps are these bodies, each with its step number. -/
theorem initSteps_eq :
    initSteps = inOrder (([1, 2, 3, 4, 5, 6, 7] : List (Fin 8)).map fun n => atStep n (initStepBody n)) := rfl

/-- The events of each step as run from `s`. -/
def stepEvents (s : State) : Fin 8 → List Event
  | 0 => []
  | 1 => powerResetEvents s.backend
  | 2 => wordEvents s.backend 0x001#9 ++ [.wait 200]
  | 3 => wordsEvents s.backend [0x03A#9, dataWord s.colorMode]
  | 4 => wordEvents s.backend 0x011#9 ++ sleepOutWait s.params.slpoutMs
  | 5 => wordEvents s.backend 0x029#9
  | 6 => wordsEvents s.backend [0x036#9, dataWord (madctrByte s.params s.orient)]
  | 7 => wordsEvents s.backend (clearWords s.params.pix18Align s.colorMode s.bg)

/-- What each step does to the marks. -/
def stepMarks : Fin 8 → Marks → Marks
  | 0 | 1 => id
  | 2 => fun m => { m with lastCmd := some codeSWRESET }
  | 3 => fun m => { m with lastCmd := some codeCOLMOD }
  | 4 => fun m => { m with lastCmd := some codeSLPOUT }
  | 5 => fun m => { m with lastCmd := some codeDISPON }
  | 6 => fun m => { m with lastCmd := some codeMADCTR }
  | 7 => marksAfterClear

/-- What each step does to the latches. -/
def stepLines (s : State) : Fin 8 → Lines → Lines
  | 0 => id
  | 1 => linesAfterPowerReset s.backend
  | 2 => linesAfterWords s.backend [0x001#9]
  | 3 => linesAfterWords s.backend [0x03A#9, dataWord s.colorMode]
  | 4 => linesAfterWords s.backend [0x011#9]
  | 5 => linesAfterWords s.backend [0x029#9]
  | 6 => linesAfterWords s.backend [0x036#9, dataWord (madctrByte s.params s.orient)]
  | 7 => linesAfterWords s.backend (clearWords s.params.pix18Align s.colorMode s.bg)

/-- Each step of INIT leaves its events (43_sequencer R133 to R140). -/
theorem initStepBody_emits (n : Fin 8) {s : State} (ho : s.tpOpen = true)
    (hm : s.colorMode = mode16 ∨ s.colorMode = mode18) :
    Emits (stepMarks n) (stepLines s n) (stepEvents s n) s (initStepBody n s) := by
  have single : ∀ {m : Marks → Marks} {w : LinkWord} {p : Proc}, Sends m [w] s (p s) →
      Emits m (linesAfterWords s.backend [w]) (wordEvents s.backend w) s (p s) := fun h =>
    h.emits.congr rfl rfl (by simp [wordsEvents])
  match n with
  | 0 => exact Emits.nothing s
  | 1 => exact powerReset_emits ho
  | 2 =>
    exact ((single (sendCmd_sends codeSWRESET ho)).andThen (q := inOrder [delay Config.tSwresetMs]) fun t _ =>
      (delay_emits_pos (n := Config.tSwresetMs) (by decide) t).andThen fun u _ => Emits.nothing u).congr rfl rfl rfl
  | 3 =>
    refine (Sends.emits ((sendCmd_sends codeCOLMOD ho).andThen (m' := id) (ws' := [dataWord s.colorMode])
      (q := inOrder [fun s => sendData s.colorMode s]) fun t d => ?_)).congr rfl rfl rfl
    rw [inOrder_single, ← d.keeps.colorMode]
    exact sendData_sends _ (d.keeps.tpOpen.trans ho)
  | 4 =>
    refine ((single (sendCmd_sends codeSLPOUT ho)).andThen (m' := id) (f' := id) (es' := sleepOutWait s.params.slpoutMs)
      (q := inOrder [fun s => delay s.params.slpoutMs s]) fun t d => ?_).congr rfl rfl rfl
    rw [inOrder_single, ← d.keeps.params]
    exact delay_emits _ t
  | 5 => exact single (sendCmd_sends codeDISPON ho)
  | 6 => exact (Sends.emits (sendOrientation_sends s.orient ho)).congr rfl rfl rfl
  | 7 => exact (clearBody_sends s.bg ho hm).emits

/-- A relation that the statements respect, every step's body respects. -/
theorem initStepBody_respects {R : State → State → Prop} (C : Composes R) (ho : Respects R (initStepBody 6)) (n : Fin 8) :
    Respects R (initStepBody n) :=
  match n with
  | 0 => fun s => C.refl s
  | 1 => C.powerReset
  | 2 => C.inOrder (by simp only [List.forall_mem_cons]; exact ⟨C.sendCmd _, C.delay _, by simp⟩)
  | 3 => C.inOrder (by simp only [List.forall_mem_cons]; exact ⟨C.sendCmd _, fun s => C.sendData _ s, by simp⟩)
  | 4 => C.inOrder (by simp only [List.forall_mem_cons]; exact ⟨C.sendCmd _, fun s => C.delay _ s, by simp⟩)
  | 5 => C.sendCmd _
  | 6 => ho
  | 7 => fun s => C.clearBody _ s

/-- No step's body writes `STEP`. -/
theorem initStepBody_keeps_stepNo (n : Fin 8) : Respects (fun s t => t.stepNo = s.stepNo) (initStepBody n) :=
  initStepBody_respects tolerates_stepNo.composes
    (fun s => tolerates_stepNo.composes.sendOrientation (fun _ => rfl) s) n

/-- Each step's body leaves `LASTCMD` mirroring the trace (10_state R34). -/
theorem initStepBody_mirrors (n : Fin 8) : Respects Mirrors (initStepBody n) :=
  initStepBody_respects composes_mirrors (fun s => composes_mirrors.sendOrientation (fun _ h => h) s) n

/-- Each step's body leaves `ORIENT` at 0 degrees, completed or cut short (43_sequencer R139). -/
theorem initStepBody_keeps_upright (n : Fin 8) :
    Respects (fun s t => s.orient = .deg0 → t.orient = .deg0) (initStepBody n) := by
  refine initStepBody_respects tolerates_upright.composes (fun s => ?_) n
  by_cases h : s.orient = .deg0
  · have hs : initStepBody 6 s = sendOrientation .deg0 s := by rw [← h]; rfl
    rw [hs]
    exact tolerates_upright.composes.sendOrientation (fun _ _ => rfl) s
  · cases initStepBody 6 s with
    | ok t => exact fun e => absurd e h
    | raised e t => exact fun e => absurd e h
    | stopped f => trivial

/-- What running INIT's steps `ns` from `s`, where `ORIENT` is 0 degrees, can end in: all their events, or, cut short in one of
them, all events of the steps before it and a proper part of its own, with `STEP` at it (20_memory R70, 43_sequencer R143). -/
def StepsRun (ns : List (Fin 8)) (s : State) : Run → Prop
  | .ok t => KeepsSetup s t ∧ t.trace = s.trace ++ ns.flatMap (stepEvents s) ∧ t.answers <:+ s.answers ∧
      t.marks = ns.foldl (fun m n => stepMarks n { m with stepNo := n }) s.marks ∧
      t.lines = ns.foldl (fun ls n => stepLines s n ls) s.lines ∧
      t.bitCnt = if s.backend = .bitBang ∧ wordsOf (ns.flatMap (stepEvents s)) ≠ [] then 0 else s.bitCnt
  | .raised e t => e = .transport ∧ KeepsSetup s t ∧ false ∈ s.answers ∧ t.orient = .deg0 ∧ ∃ before after k,
      ns = before ++ t.stepNo :: after ∧ k < (stepEvents s t.stepNo).length ∧
      t.trace = s.trace ++ before.flatMap (stepEvents s) ++ (stepEvents s t.stepNo).take k
  | .stopped _ => False

/-- The steps run one after another. -/
theorem steps_run (ns : List (Fin 8)) {s : State} (ho : s.tpOpen = true)
    (hm : s.colorMode = mode16 ∨ s.colorMode = mode18) (hd : s.orient = .deg0) :
    StepsRun ns s (inOrder (ns.map fun n => atStep n (initStepBody n)) s) := by
  induction ns generalizing s with
  | nil => exact ⟨KeepsSetup.refl s, by simp, List.suffix_refl _, rfl, rfl, by simp⟩
  | cons n ns ih =>
    rw [List.map_cons, inOrder_cons]
    have hs : atStep n (initStepBody n) s = initStepBody n { s with stepNo := n } := by
      rw [atStep, inOrder_cons, assign_apply, Run.ok_andThen, inOrder_single]
    rw [hs]
    have h : Emits (stepMarks n) (stepLines s n) (stepEvents s n) { s with stepNo := n }
      (initStepBody n { s with stepNo := n }) := by
      have := initStepBody_emits n (s := { s with stepNo := n }) ho hm
      match n, this with
      | 0, h | 1, h | 2, h | 3, h | 4, h | 5, h | 6, h | 7, h => exact h
    have hk := initStepBody_keeps_stepNo n { s with stepNo := n }
    have hsetup : KeepsSetup s { s with stepNo := n } := by constructor <;> rfl
    cases hr : initStepBody n { s with stepNo := n } with
    | stopped f => rw [hr] at h; exact h.elim
    | raised e t =>
      rw [hr] at h hk
      obtain ⟨rfl, hc⟩ := h
      obtain ⟨k, hlt, ht⟩ := hc.trace
      have e1 : t.stepNo = n := hk
      have hup := initStepBody_keeps_upright n { s with stepNo := n }
      rw [hr] at hup
      refine ⟨rfl, hsetup.trans hc.keeps, hc.answers, hup hd, [], ns, k, by rw [e1]; rfl, by rw [e1]; exact hlt, ?_⟩
      rw [e1, ht]
      simp [State.trace]
    | ok t =>
      rw [hr] at h
      have hl : Left (stepMarks n) (stepLines s n) (stepEvents s n) { s with stepNo := n } t := h
      have hkt := hsetup.trans hl.keeps
      have hor : t.orient = .deg0 := by
        have e1 : t.orient = (stepMarks n ({ s with stepNo := n } : State).marks).orient := congrArg Marks.orient hl.marks
        rw [e1]
        match n with
        | 0 | 1 | 2 | 3 | 4 | 5 | 6 | 7 => exact hd
      have ev : stepEvents t = stepEvents s := by
        funext k
        have b := hkt.backend
        have c := hkt.colorMode
        have p := hkt.params
        have g := hkt.bg
        match k with
        | 0 | 1 | 2 | 3 | 4 | 5 | 6 | 7 => simp [stepEvents, b, c, p, g, hor, hd]
      have li : stepLines t = stepLines s := by
        funext k
        have b := hkt.backend
        have c := hkt.colorMode
        have p := hkt.params
        have g := hkt.bg
        match k with
        | 0 | 1 | 2 | 3 | 4 | 5 | 6 | 7 => simp [stepLines, b, c, p, g, hor, hd]
      have hi := ih (s := t) (hkt.tpOpen.trans ho) (by rw [hkt.colorMode]; exact hm) hor
      have tr : t.trace = s.trace ++ stepEvents s n := hl.trace
      have an : t.answers <:+ s.answers := hl.answers
      simp only [Run.ok_andThen]
      cases hq : inOrder (ns.map fun n => atStep n (initStepBody n)) t with
      | stopped f => rw [hq] at hi; exact hi.elim
      | ok u =>
        rw [hq] at hi
        obtain ⟨k1, k2, k3, k4, k5, k6⟩ := hi
        refine ⟨hkt.trans k1, ?_, k3.trans an, ?_, ?_, ?_⟩
        · rw [k2, tr, ev, List.flatMap_cons, List.append_assoc]
        · rw [k4, hl.marks]; rfl
        · rw [k5, li, hl.lines]; rfl
        · rw [k6, hl.bitCnt, ev, hkt.backend, List.flatMap_cons, wordsOf_append]
          by_cases hb : s.backend = .bitBang <;> by_cases h1 : wordsOf (stepEvents s n) = [] <;>
            by_cases h2 : wordsOf (ns.flatMap (stepEvents s)) = [] <;> simp [hb, h1, h2]
      | raised e u =>
        rw [hq] at hi
        obtain ⟨rfl, k1, k2, k0, before, after, k, k3, k4, k5⟩ := hi
        rw [ev] at k4 k5
        refine ⟨rfl, hkt.trans k1, an.subset k2, k0, n :: before, after, k, by rw [k3]; rfl, k4, ?_⟩
        rw [k5, tr, List.flatMap_cons]
        simp only [List.append_assoc]

/-- The transport build (43_sequencer R132): its events, or nothing at all. -/
theorem buildTransport_cases (s : State) :
    (∃ rest, rest <:+ s.answers ∧ buildTransport s = .ok ({ s with answers := rest }.emitAll (buildEvents s.backend))) ∨
    (∃ rest, rest <:+ s.answers ∧ false ∈ s.answers ∧ buildTransport s = .raised .transport { s with answers := rest }) := by
  have calls : ∀ (n : Nat) (s : State),
      (∃ rest, rest <:+ s.answers ∧ capabilityCalls n s = .ok { s with answers := rest }) ∨
      (∃ rest, rest <:+ s.answers ∧ false ∈ s.answers ∧
        capabilityCalls n s = .raised .transport { s with answers := rest }) := by
    intro n
    induction n with
    | zero => exact fun s => .inl ⟨s.answers, List.suffix_refl _, rfl⟩
    | succ n ih =>
      intro s
      show (∃ rest, _ ∧ (capabilityCall s).andThen (capabilityCalls n) = _) ∨
        (∃ rest, _ ∧ _ ∧ (capabilityCall s).andThen (capabilityCalls n) = _)
      rcases capabilityCall_cases s with ⟨_, h⟩ | ⟨hf, h⟩
      · rw [h, Run.ok_andThen]
        have hsub : s.takeAnswer.answers <:+ s.answers := List.tail_suffix _
        rcases ih s.takeAnswer with ⟨rest, h1, h2⟩ | ⟨rest, h1, h3, h2⟩
        · exact .inl ⟨rest, h1.trans hsub, h2⟩
        · exact .inr ⟨rest, h1.trans hsub, hsub.subset h3, h2⟩
      · rw [h, Run.raised_andThen]
        exact .inr ⟨s.answers.tail, List.tail_suffix _, failure_ahead hf, rfl⟩
  unfold buildTransport
  simp only [inOrder_cons]
  rcases calls (buildCalls s.backend) s with ⟨rest, h1, h2⟩ | ⟨rest, h1, h3, h2⟩
  · rw [h2]
    exact .inl ⟨rest, h1, rfl⟩
  · rw [h2]
    exact .inr ⟨rest, h1, h3, rfl⟩

end Sys2Proof.Machine
end

