-- ==== Sys2Proof/Laws/Ops.lean ====
section
/-! SUPPORT. What the other shared operations can do, said once each: a check, an error's entry, a request's end, the
release of the handle, block reset, and the controller's side of a word. -/

namespace Sys2Proof.Machine

/-- A check either passes or raises its error, and writes nothing. -/
theorem require_cases (c : State → Bool) (e : Err) (s : State) :
    (c s = true ∧ require c e s = .ok s) ∨ (c s = false ∧ require c e s = .raised e s) := by
  cases h : c s
  · exact .inr ⟨rfl, require_fail h⟩
  · exact .inl ⟨rfl, require_pass h⟩

/-- Entry of an error that is no transport failure changes `ERR` and the response only (60_exceptions R203 to R205). -/
theorem enter_rejects {e : Err} (h : e ≠ .transport) (s : State) : RejectedWith e s (s.enter e) := by
  cases e <;> first | exact absurd rfl h | rfl

/-- Entry of a transport failure outside `INIT` and `OFF` (60_exceptions R202). -/
theorem enter_transport_ready {s : State} (h : s.phase = .ready) : s.enter .transport =
    { s with
      err := 1, rsp := 1, res := Config.freeRes s.draws, phase := .failed, pixCnt := 0, bitCnt := 0
      ctl := Controller.unknown (s.draws + 1), draws := s.draws + 2 } := by
  obtain ⟨⟩ := s
  simp only at h
  subst h
  rfl

/-- Entry of a transport failure inside `INIT` (43_sequencer R143, 60_exceptions R202). -/
theorem enter_transport_init {s : State} (h : s.phase = .init) : s.enter .transport =
    { s with
      err := 1, rsp := 1, res := Config.freeRes s.draws, phase := .failed, tpOpen := false, pixCnt := 0, bitCnt := 0
      traceRev := .closed :: s.traceRev
      ctl := Controller.unknown (s.draws + 1), draws := s.draws + 2 } := by
  obtain ⟨⟩ := s
  simp only at h
  subst h
  rfl

/-- Entry of a transport failure in `OFF`: the build failed (43_sequencer R132, 60_exceptions R202). -/
theorem enter_transport_off {s : State} (h : s.phase = .off) : s.enter .transport =
    { s with
      err := 1, rsp := 1, res := Config.freeRes s.draws, pixCnt := 0, bitCnt := 0
      ctl := Controller.unknown (s.draws + 1), draws := s.draws + 2 } := by
  obtain ⟨⟩ := s
  simp only at h
  subst h
  rfl

/-- The response code of an entered error (60_exceptions R201). -/
@[simp] theorem enter_rsp (e : Err) (s : State) : (s.enter e).rsp = errCode e := by
  cases e with
  | transport =>
    simp only [State.enter, State.failTransport]
    split <;> rfl
  | invalidParam => rfl
  | unsupportedMode => rfl
  | notReady => rfl

/-- `ERR` after an entered error (10_state R31). -/
@[simp] theorem enter_err (e : Err) (s : State) : (s.enter e).err = errCode e := by
  cases e with
  | transport =>
    simp only [State.enter, State.failTransport]
    split <;> rfl
  | invalidParam => rfl
  | unsupportedMode => rfl
  | notReady => rfl

/-- The end of a request: OK, an error entered, or a broken precondition. -/
theorem finish_cases {r : Run} {t : State} (h : finish r = .next t) :
    (∃ s, r = .ok s ∧ t = s.respond codeOK) ∨ (∃ e s, r = .raised e s ∧ t = s.enter e) := by
  cases r with
  | ok s => exact .inl ⟨s, rfl, by cases h; rfl⟩
  | raised e s => exact .inr ⟨e, s, rfl, by cases h; rfl⟩
  | stopped f => cases h

/-- A pure operation answers OK and touches nothing but the response ports (30_encoding R93). -/
theorem answerPure_next (v : BitVec 24) (s : State) : answerPure v s = .next { s with rsp := 0, res := v } := rfl

/-- The controller's side of a word when no quiet time is owed (47_link_commands R180 to R189). -/
theorem receive_command (n : Nat) (code : Byte) (c : Controller) :
    Controller.receive n 0 (commandWord code) c = Controller.receiveCommand n code c := by
  simp [Controller.receive]

/-- A data word when no quiet time is owed (47_link_commands R189). -/
theorem receive_data (n : Nat) (d : Byte) (c : Controller) :
    Controller.receive n 0 (dataWord d) c = Controller.receiveData n d c := by
  simp [Controller.receive]

/-- While quiet time is owed nothing is stated of the controller (70_reset_and_hazards R235, R236). -/
theorem receive_owed {n owed : Nat} (h : owed ≠ 0) (w : LinkWord) (c : Controller) :
    Controller.receive n owed w c = Controller.unknown n := by
  simp [Controller.receive, h]

/-- A write of a line other than `RST` reaches no register of the controller. -/
theorem wire_other {l : Line} (h : l ≠ .rst) (v : Bool) (s : State) : s.wire l v = s := by
  cases l <;> first | rfl | exact absurd rfl h

/-- `RST` low resets the controller by wire (70_reset_and_hazards R232 (2), R235). -/
theorem wire_rst_low (s : State) : s.wire .rst false =
    { s with ctl := Controller.wireReset s.draws, owed := max s.owed 200, draws := s.draws + 1 } := rfl

/-- `RST` high only owes the controller quiet time (70_reset_and_hazards R235). -/
theorem wire_rst_high (s : State) : s.wire .rst true = { s with owed := max s.owed 200 } := rfl

end Sys2Proof.Machine
end

