-- ==== Sys2Proof/Laws/PerInstr.lean ====
section
/-! SUPPORT. Statements about the instructions as syntax, one lemma per constructor. -/

namespace Sys2Proof.Laws.EncodingFitsFormat

/-- The encoding of the instruction, as a raw number in its storage, fits its word format and reads back as the same frame
(30_encoding R80, R90). -/
def Statement (i : Instr) : Prop :=
  rawFits (encode i).raw.1 (encode i).raw.2 = true ∧ frameOfRaw (encode i).raw.1 (encode i).raw.2 = some (encode i)

/-- A request's raw number. -/
theorem of_request (w : ReqWord) :
    rawFits (Frame.req w).raw.1 (Frame.req w).raw.2 = true ∧
      frameOfRaw (Frame.req w).raw.1 (Frame.req w).raw.2 = some (.req w) := by
  have h : rawFits 72 w.toNat = true := by simp only [rawFits]; exact decide_eq_true w.isLt
  refine ⟨h, ?_⟩
  simp only [Frame.raw, frameOfRaw, h, if_true]
  simp

/-- A link word's raw number. -/
theorem of_link (w : LinkWord) :
    rawFits (Frame.link w).raw.1 (Frame.link w).raw.2 = true ∧
      frameOfRaw (Frame.link w).raw.1 (Frame.link w).raw.2 = some (.link w) := by
  have h : rawFits 16 w.toNat = true := by simp only [rawFits]; exact decide_eq_true w.isLt
  refine ⟨h, ?_⟩
  simp only [Frame.raw, frameOfRaw, h, if_true]
  simp

theorem init : Statement .init := of_request _
theorem setOrientation (d : Half) : Statement (.setOrientation d) := of_request _
theorem setWindow (x y w h : Half) : Statement (.setWindow x y w h) := of_request _
theorem clear (r g b : Byte) : Statement (.clear r g b) := of_request _
theorem sendPixel (r g b : Byte) : Statement (.sendPixel r g b) := of_request _
theorem sendPixelP16 (p : Half) : Statement (.sendPixelP16 p) := of_request _
theorem close : Statement .close := of_request _
theorem sendCmd (b : Byte) : Statement (.sendCmd b) := of_request _
theorem sendData (b : Byte) : Statement (.sendData b) := of_request _
theorem pack565 (r g b : Byte) : Statement (.pack565 r g b) := of_request _
theorem unpack565 (p : Half) : Statement (.unpack565 p) := of_request _
theorem frameCmd (b : Byte) : Statement (.frameCmd b) := of_request _
theorem frameData (b : Byte) : Statement (.frameData b) := of_request _
theorem swreset : Statement .swreset := of_link _
theorem slpout : Statement .slpout := of_link _
theorem dispon : Statement .dispon := of_link _
theorem caset : Statement .caset := of_link _
theorem raset : Statement .raset := of_link _
theorem ramwr : Statement .ramwr := of_link _
theorem madctr : Statement .madctr := of_link _
theorem colmod : Statement .colmod := of_link _
theorem nvctr : Statement .nvctr := of_link _
theorem data (d : Byte) : Statement (.data d) := of_link _

end Sys2Proof.Laws.EncodingFitsFormat
end

