-- ==== Sys2Proof/Tests/Slice0.lean ====
section
/-! SUPPORT. Tests: ill-formed terms that WellFormed refuses, a word of every instruction written out from the spec's
encodings, single steps against the vectors of 95_test_vectors, and for every statement with hypotheses a state that meets
them. -/

namespace Sys2Proof.Tests

open Sys2Proof.Machine

/-! ### WellFormed refuses ill-formed terms -/

/-- A 69-bit number is no request (30_encoding R90). -/
theorem test_wf_request_too_wide : rawFits 72 (2 ^ 68) = false := by decide
theorem test_wf_request_widest : rawFits 72 (2 ^ 68 - 1) = true := by decide
/-- A 10-bit number is no link word (30_encoding R80). -/
theorem test_wf_link_too_wide : rawFits 16 512 = false := by decide
theorem test_wf_link_widest : rawFits 16 511 = true := by decide
/-- Masks that are not distinct single bits (46_orientation R171). -/
theorem test_wf_mask_zero : Params.wf ⟨0x00, 0x40, 0x20, 0, .left⟩ = false := by decide
theorem test_wf_mask_two_bits : Params.wf ⟨0x80, 0x60, 0x20, 0, .left⟩ = false := by decide
theorem test_wf_masks_equal : Params.wf ⟨0x80, 0x40, 0x80, 0, .left⟩ = false := by decide
theorem test_wf_masks_default : Params.wf paramsDefault = true := by decide
theorem test_raw_too_wide_is_refused : decodeTableWord 72 (2 ^ 68 + 2 ^ 64) = none := by decide

/-! ### Decoding: one written-out word each (30_encoding R83, R91; the hexadecimal words of 95_test_vectors) -/

theorem test_decode_init : decodeTableWord 72 0x10000000000000000 = some .init := by decide
theorem test_decode_set_orientation : decodeTableWord 72 0x2005A000000000000 = some (.setOrientation 90) := by decide
theorem test_decode_set_window : decodeTableWord 72 0x3000A000500140014 = some (.setWindow 10 5 20 20) := by decide
theorem test_decode_clear : decodeTableWord 72 0x40012003400560000 = some (.clear 0x12 0x34 0x56) := by decide
theorem test_decode_send_pixel : decodeTableWord 72 0x500AB00CD00EF0000 = some (.sendPixel 0xAB 0xCD 0xEF) := by decide
theorem test_decode_send_pixel_p16 : decodeTableWord 72 0x6F800000000000000 = some (.sendPixelP16 0xF800) := by decide
theorem test_decode_close : decodeTableWord 72 0x70000000000000000 = some .close := by decide
theorem test_decode_send_cmd : decodeTableWord 72 0x80029000000000000 = some (.sendCmd 0x29) := by decide
/-- The upper byte of an 8-bit operand's field is ignored (95_test_vectors T2, T1). -/
theorem test_decode_send_data : decodeTableWord 72 0x901FF000000000000 = some (.sendData 0xFF) := by decide
theorem test_decode_pack565 : decodeTableWord 72 0xAFF12AB34CD560000 = some (.pack565 0x12 0x34 0x56) := by decide
theorem test_decode_unpack565 : decodeTableWord 72 0xB11AA000000000000 = some (.unpack565 0x11AA) := by decide
theorem test_decode_frame_cmd : decodeTableWord 72 0xC002C000000000000 = some (.frameCmd 0x2C) := by decide
theorem test_decode_frame_data : decodeTableWord 72 0xD0005000000000000 = some (.frameData 0x05) := by decide
theorem test_decode_swreset : decodeTableWord 16 0b000000001 = some .swreset := by decide
theorem test_decode_slpout : decodeTableWord 16 0b000010001 = some .slpout := by decide
theorem test_decode_dispon : decodeTableWord 16 0b000101001 = some .dispon := by decide
theorem test_decode_caset : decodeTableWord 16 0b000101010 = some .caset := by decide
theorem test_decode_raset : decodeTableWord 16 0b000101011 = some .raset := by decide
theorem test_decode_ramwr : decodeTableWord 16 0b000101100 = some .ramwr := by decide
theorem test_decode_madctr : decodeTableWord 16 0b000110110 = some .madctr := by decide
theorem test_decode_colmod : decodeTableWord 16 0b000111010 = some .colmod := by decide
theorem test_decode_nvctr : decodeTableWord 16 0b010110100 = some .nvctr := by decide
theorem test_decode_data : decodeTableWord 16 0b110100010 = some (.data 0xA2) := by decide
/-- Reserved operation codes (30_encoding R94; 95_test_vectors T8) and a command code outside the table (R98). -/
theorem test_decode_reserved_e : decode (.req 0xE0000000000000000) = .reservedOp 0xE := by decide
theorem test_decode_reserved_f : decode (.req 0xF0000000000001234) = .reservedOp 0xF := by decide
theorem test_decode_reserved_zero : decode (.req 0x00000000000000000) = .reservedOp 0 := by decide
theorem test_decode_unnamed : decode (.link 0x02E) = .unnamedCommand 0x2E := by decide

/-! ### Single steps -/

/-- A block that is ready in the given colour mode, with the answers given for its capability calls. -/
def served (k : Backend) (mode : Byte) (answers : List Bool) : State :=
  { State.reset with
    backend := k, colorMode := mode, phase := .ready, tpOpen := true, stepNo := 7, answers := answers
    lines := match k with
      | .hwSerial => ⟨.x, .x, .x, .one, .x⟩
      | .bitBang => ⟨.one, .one, .zero, .one, .x⟩
    lastCmd := some 0x2C, win := some ⟨2, 131, 1, 162⟩, traceRev := [.w9 0x100, .w9 0x02C] }

/-- The straps of program P2 (95_test_vectors). -/
def strapsP2 : Straps := ⟨.bitBang, 0x05, colorZero, colorZero, idsZero⟩

/-- The environment of program P2: the build's 6 calls and 24 pin writes succeed, the 25th fails. -/
def beforeP2 : State := { State.reset with straps := strapsP2, answers := List.replicate 30 true ++ [false] }

/-- The state a step leaves when it serves a request. -/
def served? (s : State) (w : ReqWord) : Option State :=
  match step { s with host := [.present (.req w)] } with
  | .next t => some t
  | .fault _ | .refused _ => none

/-- The response and the events a request adds. -/
def answer (s : State) (w : ReqWord) : Option (BitVec 3 × List Event) :=
  (served? s w).map fun t => (t.rsp, t.trace.drop s.trace.length)

/-- The state a link word leaves. -/
def linked? (s : State) (w : LinkWord) : Option State :=
  match step { s with host := [.present (.link w)] } with
  | .next t => some t
  | .fault _ | .refused _ => none

/-- `W9` events. -/
def words (ws : List LinkWord) : List Event := ws.map .w9

/-- T1: PACK565 0x12, 0x34, 0x56 answers 0x0011AA, in `OFF` too. -/
theorem test_pack565 : (served? State.reset 0xA0012003400560000).map (fun t => (t.rsp, t.res, t.err)) =
    some (0, 0x0011AA, 0) := by decide
/-- T1: 0x08, 0x04, 0x08 keeps the lowest kept bits. -/
theorem test_pack565_low_bits : (served? State.reset 0xA0008000400080000).map (·.res) = some 0x000821 := by decide
theorem test_unpack565 : (served? State.reset 0xB11AA000000000000).map (fun t => (t.rsp, t.res)) =
    some (0, 0x103450) := by decide
theorem test_frame_cmd : (served? State.reset 0xC00FF000000000000).map (·.res) = some 0x0000FF := by decide
theorem test_frame_data : (served? State.reset 0xD00FF000000000000).map (·.res) = some 0x0001FF := by decide

/-- T2. -/
theorem test_send_cmd : answer (served .hwSerial 5 []) 0x800B4000000000000 = some (0, words [0x0B4]) := by decide
theorem test_send_cmd_last : (served? (served .hwSerial 5 []) 0x80029000000000000).map (·.lastCmd) =
    some (some 0x29) := by decide
theorem test_send_cmd_off : (served? State.reset 0x80029000000000000).map
    (fun t => (t.rsp, t.err, t.phase, t.trace)) = some (4, 4, .off, []) := by decide
theorem test_send_data : answer (served .hwSerial 5 []) 0x901FF000000000000 = some (0, words [0x1FF]) := by decide

/-- T3: word 0x1A2 on the bit-banged backend, `SDA` left at bit 0. -/
theorem test_bit_banged_word : answer (served .bitBang 5 []) 0x900A2000000000000 = some (0, wordPins 0x1A2 ++ [.w9 0x1A2]) := by
  decide +kernel
theorem test_word_pins : wordPins 0x1A2 = [.pin .cs false,
    .pin .sda true, .pin .sck false, .pin .sck true, .pin .sda true, .pin .sck false, .pin .sck true,
    .pin .sda false, .pin .sck false, .pin .sck true, .pin .sda true, .pin .sck false, .pin .sck true,
    .pin .sda false, .pin .sck false, .pin .sck true, .pin .sda false, .pin .sck false, .pin .sck true,
    .pin .sda false, .pin .sck false, .pin .sck true, .pin .sda true, .pin .sck false, .pin .sck true,
    .pin .sda false, .pin .sck false, .pin .sck true, .pin .cs true] := by decide
/-- T3: the 19th pin write of word 0x001 fails. -/
theorem test_failed_pin_write : (served? (served .bitBang 5 (List.replicate 18 true ++ [false])) 0x80001000000000000).map
    (fun t => (t.rsp, t.trace.length, t.lines, t.phase, t.bitCnt)) =
    some (1, 20, ⟨.zero, .x, .zero, .one, .x⟩, .failed, 0) := by decide +kernel

/-- T4, row 2, and a row that is rejected. -/
theorem test_set_window : answer (served .hwSerial 5 []) 0x3000A000500140014 =
    some (0, words [0x02A, 0x100, 0x10C, 0x100, 0x11F, 0x02B, 0x100, 0x106, 0x100, 0x11A, 0x02C]) := by decide +kernel
theorem test_set_window_no_wrap : (served? (served .hwSerial 5 []) 0x3FFFF000000010001).map
    (fun t => (t.rsp, t.win, t.trace.length)) = some (2, some ⟨2, 131, 1, 162⟩, 2) := by decide

/-- T5: a failure at word 12 of CLEAR leaves 11 words and the full-panel window. -/
theorem test_clear_cut_short : (served? { served .hwSerial 5 (List.replicate 11 true ++ [false]) with win := none }
    0x400FF00FF00FF0000).map (fun t => (t.rsp, t.trace.length, t.win, t.phase, t.pixCnt)) =
    some (1, 13, some ⟨2, 131, 1, 162⟩, .failed, 0) := by decide +kernel
/-- D10: 12-bit mode. -/
theorem test_clear_twelve_bit : answer (served .hwSerial 3 []) 0x400FF00FF00FF0000 = some (3, []) := by decide

/-- T6. -/
theorem test_send_pixel_16 : answer (served .hwSerial 5 []) 0x50012003400560000 = some (0, words [0x111, 0x1AA]) := by
  decide
theorem test_send_pixel_18 : answer (served .hwSerial 6 []) 0x500AB00CD00EF0000 =
    some (0, words [0x1A8, 0x1CC, 0x1EC]) := by decide
/-- `PIX18_ALIGN` right: the six bits at the low end (log 20; no vector of the spec). -/
theorem test_pix666_right : pix666 .right ⟨0xAB, 0xCD, 0xEF⟩ = [0x2A, 0x33, 0x3B] := by decide
theorem test_send_pixel_p16 : answer (served .hwSerial 5 []) 0x6F800000000000000 = some (0, words [0x1F8, 0x100]) := by
  decide
theorem test_send_pixel_p16_wrong_mode : answer (served .hwSerial 6 []) 0x6F800000000000000 = some (3, []) := by decide

/-- T7, and T8's failed data word. -/
theorem test_set_orientation : (served? (served .hwSerial 5 []) 0x2010E000000000000).map
    (fun t => (t.rsp, t.trace.drop 2, t.orient, t.lastCmd)) = some (0, words [0x036, 0x1A0], .deg270, some 0x36) := by decide
theorem test_set_orientation_cut_short : (served? (served .hwSerial 5 [true, false]) 0x2005A000000000000).map
    (fun t => (t.rsp, t.trace.drop 2, t.orient, t.tpOpen, t.phase)) =
    some (1, words [0x036], .deg0, true, .failed) := by decide

/-- T8: INIT with the straps the checks refuse, and the reserved operation. -/
theorem test_init_twelve_bit : (served? { State.reset with straps := { strapsAtReset with colorMode := 0x03 } }
    0x10000000000000000).map (fun t => (t.rsp, t.phase, t.trace)) = some (3, .off, []) := by decide
/-- P2, request 1: INIT fails at the 25th pin write. -/
theorem test_init_cut_short : (served? beforeP2 0x10000000000000000).map
    (fun t => (t.rsp, t.trace.length, t.lines, t.phase, t.stepNo, t.tpOpen)) =
    some (1, 33, ⟨.zero, .x, .zero, .one, .x⟩, .failed, 2, false) := by decide +kernel
theorem test_reserved : (served? (served .hwSerial 5 []) 0xF0000000000001234).map (fun t => (t.rsp, t.phase, t.err)) =
    some (2, .ready, 2) := by decide
theorem test_close : (served? (served .hwSerial 5 []) 0x70000000000000000).map
    (fun t => (t.rsp, t.phase, t.tpOpen, t.traceRev.head?)) = some (0, .closed, false, some .closed) := by decide
theorem test_close_off : (served? State.reset 0x70000000000000000).map (fun t => (t.rsp, t.phase)) =
    some (4, .off) := by decide

/-- The link words put on the link by themselves, and what the controller side takes of them. -/
theorem test_link_slpout : (linked? (served .hwSerial 5 []) 0x011).map (fun t => (t.rsp, t.lastCmd, t.ctl.asleep)) =
    some (0, some 0x11, false) := by decide
theorem test_link_dispon : (linked? (served .hwSerial 5 []) 0x029).map (fun t => (t.lastCmd, t.ctl.displayOn)) =
    some (some 0x29, true) := by decide
theorem test_link_unnamed : (linked? (served .hwSerial 5 []) 0x0AA).map (fun t => (t.rsp, t.lastCmd)) =
    some (0, some 0xAA) := by decide
theorem test_link_data : (linked? (served .hwSerial 5 []) 0x1A2).map (fun t => (t.rsp, t.trace.drop 2, t.lastCmd)) =
    some (0, words [0x1A2], some 0x2C) := by decide
/-- The whole range of a CASET, high byte first (47_link_commands R183). -/
theorem test_link_caset_parameters :
    ((((((linked? (served .hwSerial 5 []) 0x02A).bind (linked? · 0x100)).bind (linked? · 0x10C)).bind
      (linked? · 0x101)).bind (linked? · 0x11F)).map fun t => (t.ctl.colStart, t.ctl.colEnd)) =
    some (0x000C, 0x011F) := by decide +kernel

/-! ### States that meet the hypotheses of the statements -/

/-- No failure ahead, where no answer is listed. -/
theorem noFailure_of_nil {s : State} (h : s.answers = []) : NoFailure s := by
  intro a ha
  rw [h] at ha
  cases ha

/-- Whether an outcome is a next state that meets `P`. -/
def nextMeets (P : State → Prop) [DecidablePred P] (o : Host.Outcome State Fault Refusal) : Bool :=
  match o with
  | .next t => decide (P t)
  | .fault _ | .refused _ => false

theorem nextMeets_spec {P : State → Prop} [DecidablePred P] {o : Host.Outcome State Fault Refusal}
    (h : nextMeets P o = true) : ∃ t, o = .next t ∧ P t := by
  cases o with
  | next t => exact ⟨t, rfl, of_decide_eq_true h⟩
  | fault f => cases h
  | refused r => cases h

/-- A ready block, nothing failing, on either backend and in each mode. -/
theorem serving_ready (k : Backend) (mode : Byte) (as : List Bool) : Serving (served k mode as) := ⟨rfl, rfl⟩
theorem noFailure_ready (k : Backend) (mode : Byte) : NoFailure (served k mode []) := noFailure_of_nil rfl

theorem witness_DecodeEncodeRoundTrip : Instr.wf (.setWindow 0xFFFF 0 1 0x8000) = true := by decide
theorem witness_LinkWordHasOneMeaning : decode (.link 0x1FF) = .ok (.data 0xFF) ∧ decode (.link 0x001) = .ok .swreset := by
  decide
theorem witness_RequestOperandsAreTheirFields : decode (.req 0xAFF12AB34CD56FFFF) = .ok (.pack565 0x12 0x34 0x56) ∧
    (0xA0012003400560000 : ReqWord) &&& usedBits (.pack565 0x12 0x34 0x56) =
      0xAFF12AB34CD56FFFF &&& usedBits (.pack565 0x12 0x34 0x56) := by decide
theorem witness_StepRunsDecodedInstruction :
    { served .hwSerial 5 [] with host := [.present (.req 0x80029000000000000), .blockReset] }.host =
      .present (.req 0x80029000000000000) :: [.blockReset] ∧
    decode (.req 0x80029000000000000) = .ok (.sendCmd 0x29) := by decide
theorem witness_ReservedOpIsRejected :
    (0x0FFFF000000000000 : ReqWord).extractLsb' 64 4 = 0x0#4 ∧ (0xE0000000000000000 : ReqWord).extractLsb' 64 4 = 0xE#4 ∧
    (0xF0000000000001234 : ReqWord).extractLsb' 64 4 = 0xF#4 ∧
    { State.reset with host := [.present (.req 0xF0000000000001234)] }.host = [.present (.req 0xF0000000000001234)] := by
  decide
theorem witness_UnnamedCommandWordIsSent :
    { served .bitBang 5 [] with host := [.present (.link (commandWord 0xFF))] }.host = [.present (.link (commandWord 0xFF))] ∧
    decode (.link (commandWord 0xFF)) = .unnamedCommand 0xFF ∧ Serving (served .bitBang 5 []) ∧
    NoFailure (served .bitBang 5 []) := ⟨rfl, by decide, serving_ready _ _ _, noFailure_ready _ _⟩
theorem witness_HostActsTouchOnlyTheirInputs : State.reset.host = [] ∧
    { State.reset with host := [.drive strapsP2] }.host = [.drive strapsP2] ∧
    { State.reset with host := [.pause 200] }.host = [.pause 200] := by decide
theorem witness_PackUnpackLaws : (∃ t, exec (.unpack565 0xFFFF) State.reset = .next t) ∧
    ∃ t, exec (.pack565 0xFF 0x03 0x07) State.reset = .next t := ⟨⟨_, rfl⟩, ⟨_, rfl⟩⟩
theorem witness_LinkSendCompletes : (served .bitBang 5 []).tpOpen = true ∧ NoFailure (served .bitBang 5 []) ∧
    (served .hwSerial 5 [true]).tpOpen = true ∧ NoFailure (served .hwSerial 5 [true]) :=
  ⟨rfl, noFailure_ready _ _, rfl, fun a ha => by simpa [served] using ha⟩
theorem witness_FailedPinWriteCutsWordShort : (served .bitBang 5 (List.replicate 28 true ++ false :: [true])).tpOpen = true ∧
    (served .bitBang 5 (List.replicate 28 true ++ false :: [true])).backend = .bitBang ∧ 28 < 29 ∧
    (served .bitBang 5 (List.replicate 28 true ++ false :: [true])).answers = List.replicate 28 true ++ false :: [true] := by
  decide
theorem witness_FailedSendWordLeavesNothing : (served .hwSerial 5 [false]).tpOpen = true ∧
    (served .hwSerial 5 [false]).backend = .hwSerial ∧ (served .hwSerial 5 [false]).answers = false :: [] := by decide
/-- A word line, and `RST` either way on either backend; each with a call that succeeds and one that fails. -/
theorem witness_PinWriteSetsLatchOrLeavesX :
    ((served .bitBang 5 []).tpOpen = true ∧ (served .bitBang 5 []).backend = .bitBang ∧
      (served .bitBang 5 []).callSucceeds = true ∧ Line.cs ≠ .rst ∧ (served .bitBang 5 [false]).callSucceeds = false) ∧
    ((served .hwSerial 5 []).tpOpen = true ∧ Line.rst = .rst ∧ (served .hwSerial 5 []).callSucceeds = true ∧
      (false = false ∧ true = true)) ∧
    (served .hwSerial 5 [false]).tpOpen = true ∧ (served .hwSerial 5 [false]).callSucceeds = false := by
  decide
/-- A failed write of `RST` leaves its latch X; `RST` low has the controller owed 200 ms. -/
theorem test_rst_failed : (match pinWrite .rst false (served .hwSerial 5 [false]) with
    | .raised _ t => some (t.lines.rst, t.owed)
    | .ok _ | .stopped _ => none) = some (.x, 0) := by decide
theorem test_rst_low : (match pinWrite .rst false (served .hwSerial 5 []) with
    | .ok t => some (t.lines.rst, t.owed, t.ctl.cmd)
    | .raised _ _ | .stopped _ => none) = some (.zero, 200, none) := by decide
theorem witness_DelayAppendsWait : (1 : Nat) ≠ 0 := by decide
/-- SEND_CMD, SEND_DATA, the command words and the data word share these hypotheses. -/
theorem witness_SendCmdCompletes : Serving (served .bitBang 5 []) ∧ NoFailure (served .bitBang 5 []) :=
  ⟨serving_ready _ _ _, noFailure_ready _ _⟩
theorem witness_SendDataCompletes : Serving (served .hwSerial 6 []) ∧ NoFailure (served .hwSerial 6 []) :=
  ⟨serving_ready _ _ _, noFailure_ready _ _⟩
theorem witness_SendPixelCompletes :
    (Serving (served .hwSerial 5 []) ∧ (served .hwSerial 5 []).colorMode = 0x05 ∧ NoFailure (served .hwSerial 5 [])) ∧
    (Serving (served .bitBang 6 []) ∧ (served .bitBang 6 []).colorMode = 0x06 ∧ NoFailure (served .bitBang 6 [])) ∧
    Serving (served .hwSerial 3 []) ∧ (served .hwSerial 3 []).colorMode = 0x03 :=
  ⟨⟨serving_ready _ _ _, rfl, noFailure_ready _ _⟩, ⟨serving_ready _ _ _, rfl, noFailure_ready _ _⟩,
    serving_ready _ _ _, rfl⟩
theorem witness_SendPixelP16Completes :
    (Serving (served .hwSerial 5 []) ∧ (served .hwSerial 5 []).colorMode = 0x05 ∧ NoFailure (served .hwSerial 5 [])) ∧
    Serving (served .bitBang 6 []) ∧ (served .bitBang 6 []).colorMode ≠ 0x05 :=
  ⟨⟨serving_ready _ _ _, rfl, noFailure_ready _ _⟩, serving_ready _ _ _, by decide⟩
theorem witness_PackedPixelAgreesWithUnpackedPixel : (served .bitBang 5 []).phase = .ready ∧
    (served .bitBang 5 []).colorMode = 0x05 ∧ ∃ u, exec (.unpack565 0xF81F) (served .bitBang 5 []) = .next u :=
  ⟨rfl, rfl, _, rfl⟩
/-- The largest x and the largest sizes that are accepted (95_test_vectors T4). -/
theorem witness_SetWindowCompletes : Serving (served .hwSerial 5 []) ∧ NoFailure (served .hwSerial 5 []) ∧
    ((255 : Byte).toNat = (253 : Half).toNat + 2 ∧ (255 : Byte).toNat = (253 : Half).toNat + (1 : Half).toNat + 1 ∧
      (1 : Byte).toNat = (0 : Half).toNat + 1 ∧ (255 : Byte).toNat = (0 : Half).toNat + (254 : Half).toNat + 1) :=
  ⟨serving_ready _ _ _, noFailure_ready _ _, by decide⟩
/-- Each of the four values at 256 (95_test_vectors T4). -/
theorem witness_SetWindowRejectsOutOfRange : (served .hwSerial 5 []).phase = .ready ∧
    255 < (254 : Half).toNat + 2 ∧ 255 < (0 : Half).toNat + (255 : Half).toNat + 1 ∧ 255 < (255 : Half).toNat + 1 ∧
    255 < (0 : Half).toNat + (255 : Half).toNat + 1 ∧ Serving (served .hwSerial 5 []) ∧ NoFailure (served .hwSerial 5 []) :=
  ⟨rfl, by decide, by decide, by decide, by decide, serving_ready _ _ _, noFailure_ready _ _⟩
theorem witness_ClearCompletes :
    (Serving (served .hwSerial 5 []) ∧ (served .hwSerial 5 []).colorMode = 0x05 ∧ NoFailure (served .hwSerial 5 [])) ∧
    (Serving (served .bitBang 6 []) ∧ (served .bitBang 6 []).colorMode = 0x06 ∧ NoFailure (served .bitBang 6 [])) ∧
    Serving (served .hwSerial 3 []) ∧ (served .hwSerial 3 []).colorMode = 0x03 := witness_SendPixelCompletes
theorem witness_SetOrientationCompletes : Serving (served .hwSerial 5 []) ∧ NoFailure (served .hwSerial 5 []) ∧
    ((0 : Half) = 0 ∧ (0x00 : Byte) = 0x00) ∧
    (0x60 : Byte) = (served .hwSerial 5 []).params.madctrMV ||| (served .hwSerial 5 []).params.madctrMX ∧
    (0xC0 : Byte) = (served .hwSerial 5 []).params.madctrMY ||| (served .hwSerial 5 []).params.madctrMX ∧
    (0xA0 : Byte) = (served .hwSerial 5 []).params.madctrMV ||| (served .hwSerial 5 []).params.madctrMY :=
  ⟨serving_ready _ _ _, noFailure_ready _ _, by decide⟩
theorem witness_SetOrientationRejectsOthers : (served .bitBang 5 []).phase = .ready ∧ (0xFFFF : Half) ≠ 0 ∧
    (0xFFFF : Half) ≠ 90 ∧ (0xFFFF : Half) ≠ 180 ∧ (0xFFFF : Half) ≠ 270 := by decide
theorem witness_OrientationBytesDiffer : Params.wf ⟨0x01, 0x02, 0x04, 120, .right⟩ = true ∧
    madctrByte ⟨0x01, 0x02, 0x04, 120, .right⟩ .deg90 = madctrByte ⟨0x01, 0x02, 0x04, 120, .right⟩ .deg90 := by decide
theorem witness_CommandWordsComplete : namedCommand .nvctr = some 0xB4 ∧ namedCommand .swreset = some 0x01 ∧
    Serving (served .bitBang 5 []) ∧ NoFailure (served .bitBang 5 []) :=
  ⟨rfl, rfl, serving_ready _ _ _, noFailure_ready _ _⟩
theorem witness_DataWordCompletes : Serving (served .bitBang 5 []) ∧ NoFailure (served .bitBang 5 []) :=
  ⟨serving_ready _ _ _, noFailure_ready _ _⟩
/-- The largest window, CLEAR in the three modes, INIT with both straps. -/
theorem witness_WordCounts :
    (Serving (served .hwSerial 5 []) ∧ NoFailure (served .hwSerial 5 []) ∧ (253 : Half).toNat + (1 : Half).toNat ≤ 254 ∧
      (253 : Half).toNat ≤ 253 ∧ (0 : Half).toNat + (254 : Half).toNat ≤ 254 ∧ (served .hwSerial 5 []).colorMode = 0x05) ∧
    (Serving (served .bitBang 6 []) ∧ NoFailure (served .bitBang 6 []) ∧ (served .bitBang 6 []).colorMode = 0x06) ∧
    (Serving (served .hwSerial 3 []) ∧ NoFailure (served .hwSerial 3 []) ∧ (served .hwSerial 3 []).colorMode = 0x03) ∧
    (State.reset.phase = .off ∧ NoFailure State.reset ∧ State.reset.straps.colorMode = 0x05) ∧
    { State.reset with straps := { strapsP2 with colorMode := 0x06 } }.phase = .off ∧
    NoFailure { State.reset with straps := { strapsP2 with colorMode := 0x06 } } :=
  ⟨⟨serving_ready _ _ _, noFailure_ready _ _, by decide, by decide, by decide, rfl⟩,
    ⟨serving_ready _ _ _, noFailure_ready _ _, rfl⟩, ⟨serving_ready _ _ _, noFailure_ready _ _, rfl⟩,
    ⟨rfl, noFailure_of_nil rfl, rfl⟩, rfl, noFailure_of_nil rfl⟩
theorem witness_InitCompletes :
    (State.reset.phase = .off ∧ State.reset.straps.colorMode = 0x05 ∧ NoFailure State.reset ∧
      State.reset.straps.backend = .hwSerial) ∧
    { State.reset with straps := { strapsP2 with colorMode := 0x06 } }.phase = .off ∧
    { State.reset with straps := { strapsP2 with colorMode := 0x06 } }.straps.backend = .bitBang ∧
    NoFailure { State.reset with straps := { strapsP2 with colorMode := 0x06 } } :=
  ⟨⟨rfl, rfl, noFailure_of_nil rfl, rfl⟩, rfl, rfl, noFailure_of_nil rfl⟩
theorem witness_InitChecksComeFirst : (served .hwSerial 5 []).phase ≠ .off ∧
    ({ State.reset with straps := { strapsAtReset with colorMode := 0x07 } }.phase = .off ∧
      (0x07 : Byte) ≠ 0x03 ∧ (0x07 : Byte) ≠ 0x05 ∧ (0x07 : Byte) ≠ 0x06) ∧
    { State.reset with straps := { strapsAtReset with colorMode := 0x03 } }.straps.colorMode = 0x03 := by decide
theorem witness_FailedBuildStaysOff :
    ({ State.reset with straps := strapsP2, answers := List.replicate 5 true ++ false :: [] }.phase = .off ∧
      strapsP2.colorMode = 0x05 ∧ strapsP2.backend = .bitBang ∧ 5 < 6) ∧
    { State.reset with answers := List.replicate 3 true ++ false :: [] }.straps.backend = .hwSerial ∧ 3 < 4 := by decide
theorem witness_FailedInitReleasesHandle : beforeP2.phase = .off ∧ beforeP2.lastCmd = lastCommand beforeP2.trace ∧
    ∃ t, exec .init beforeP2 = .next t ∧ (t.rsp = 1 ∧ t.phase ≠ .off) :=
  ⟨rfl, by decide, nextMeets_spec (by decide +kernel)⟩
theorem witness_CloseCompletes : (served .hwSerial 5 []).phase = .ready ∧
    { served .hwSerial 5 [] with phase := .failed, tpOpen := false }.phase = .failed ∧ State.reset.phase = .off ∧
    { State.reset with phase := .closed }.phase = .closed := by decide
theorem witness_NotReadyRejects : (isSending (.clear 0 0 0) = true ∧ State.reset.phase ≠ .ready) ∧
    (served .hwSerial 5 []).phase ≠ .off ∧ (State.reset.phase ≠ .ready ∧ State.reset.phase ≠ .failed) := by decide
/-- A CLEAR that fails after its window, and a SET_ORIENTATION that fails inside. -/
theorem witness_TransportFailureEntry :
    (isSending (.clear 1 2 3) = true ∧ Serving { served .hwSerial 5 (List.replicate 11 true ++ [false]) with win := none } ∧
      ∃ t, exec (.clear 1 2 3) { served .hwSerial 5 (List.replicate 11 true ++ [false]) with win := none } = .next t ∧
        (t.rsp = 1 ∧ t.win ≠ none)) ∧
    isSending (.setOrientation 90) = true ∧ Serving (served .hwSerial 5 [true, false]) ∧
    (served .hwSerial 5 [true, false]).lastCmd = lastCommand (served .hwSerial 5 [true, false]).trace ∧
    ∃ t, exec (.setOrientation 90) (served .hwSerial 5 [true, false]) = .next t ∧
      (t.rsp = 1 ∧ t.orient = .deg0 ∧ t.lastCmd = some 0x36) :=
  ⟨⟨rfl, ⟨rfl, rfl⟩, nextMeets_spec (by decide +kernel)⟩, rfl, serving_ready _ _ _, by decide,
    nextMeets_spec (by decide +kernel)⟩
theorem witness_FailedRequestLeavesProperPrefix : isSending (.setOrientation 90) = true ∧
    Serving (served .hwSerial 5 [true, false]) ∧
    (∃ t, exec (.setOrientation 90) (served .hwSerial 5 [true, false]) = .next t ∧ t.rsp = 1) ∧
    ∃ u, exec (.setOrientation 90) { served .hwSerial 5 [true, false] with answers := [] } = .next u ∧ u.rsp = 0 :=
  ⟨rfl, serving_ready _ _ _, nextMeets_spec (by decide +kernel), nextMeets_spec (by decide +kernel)⟩
theorem witness_RejectionHasNoOtherEffect : Err.invalidParam ≠ .transport ∧
    ∃ t, exec (.setWindow 254 0 0 0) (served .hwSerial 5 []) = .next t ∧ t.rsp = errCode .invalidParam :=
  ⟨by decide, nextMeets_spec (by decide +kernel)⟩
/-- An instruction that answers OK and one that does not, for the statements about every next state. -/
theorem witness_ErrKeepsLastErrorCode :
    (∃ t, exec (.sendCmd 0x29) (served .hwSerial 5 []) = .next t ∧ t.rsp = 0) ∧
    ∃ t, exec (.sendCmd 0x29) State.reset = .next t ∧ t.rsp = 4 :=
  ⟨nextMeets_spec (by decide +kernel), nextMeets_spec (by decide +kernel)⟩
theorem witness_PhaseTableIsComplete : ∃ t, exec .close (served .hwSerial 5 []) = .next t ∧ t.phase = .closed :=
  nextMeets_spec (by decide +kernel)
theorem witness_TraceOnlyGrows : ∃ t, exec (.sendCmd 0x29) (served .hwSerial 5 []) = .next t ∧ t.trace.length = 3 :=
  nextMeets_spec (by decide +kernel)
theorem witness_LatchedConfigurationIsFixed : (served .hwSerial 5 []).phase ≠ .off ∧
    ∃ t, exec .close (served .hwSerial 5 []) = .next t ∧ t.rsp = 0 :=
  ⟨by decide, nextMeets_spec (by decide +kernel)⟩
theorem witness_BlockNeverReadsController : ∃ t, exec (.sendData 0x05) (served .bitBang 5 []) = .next t ∧ t.rsp = 0 :=
  nextMeets_spec (by decide +kernel)
theorem witness_ShadowRegistersDecideNothing : ∃ t, exec (.sendPixelP16 0x07E0) (served .hwSerial 5 []) = .next t ∧ t.rsp = 0 :=
  nextMeets_spec (by decide +kernel)
theorem witness_BackendsSendTheSameWords : NoFailure (served .hwSerial 5 []) ∧ NoFailure (served .bitBang 5 []) ∧
    served .bitBang 5 [] = { served .hwSerial 5 [] with
      backend := (served .bitBang 5 []).backend
      straps := { (served .hwSerial 5 []).straps with backend := (served .bitBang 5 []).straps.backend }
      lines := (served .bitBang 5 []).lines, bitCnt := (served .bitBang 5 []).bitCnt
      answers := (served .bitBang 5 []).answers, traceRev := (served .bitBang 5 []).traceRev } ∧
    (∃ t, exec (.sendCmd 0x29) (served .hwSerial 5 []) = .next t ∧ t.rsp = 0) ∧
    ∃ t, exec (.sendCmd 0x29) (served .bitBang 5 []) = .next t ∧ t.rsp = 0 :=
  ⟨noFailure_ready _ _, noFailure_ready _ _, rfl, nextMeets_spec (by decide +kernel), nextMeets_spec (by decide +kernel)⟩
/-- A ready block on the bit-banged backend has the invariant, and a step from it answers a next state. -/
theorem witness_StepKeepsInvariant : Inv (served .bitBang 5 []) ∧
    ∃ t, step { served .bitBang 5 [] with host := [.present (.req 0x80029000000000000)] } = .next t ∧ t.rsp = 0 :=
  ⟨{ notMidInit := by decide, openWhenReady := by decide, closedOutside := by decide, modeLatched := by decide,
     countersIdle := by decide, backlightUndriven := by decide, serialLinesUndriven := by decide,
     offUntouched := by decide, readyDone := by decide, readyIdle := fun _ _ => ⟨rfl, rfl, 0x100, by decide, by decide⟩,
     lastCmdMirrors := by decide, errDefined := by decide }, nextMeets_spec (by decide +kernel)⟩
/-- `StepNeverStops` has the same hypothesis. -/
theorem witness_StepNeverStops : Inv (served .bitBang 5 []) := witness_StepKeepsInvariant.1
theorem witness_BlockResetValues : { served .bitBang 5 [] with host := [.blockReset, .pause 200] }.host =
    .blockReset :: [.pause 200] := by decide
theorem witness_ControllerTakesWindow : Serving (served .hwSerial 5 []) ∧ NoFailure (served .hwSerial 5 []) ∧
    (served .hwSerial 5 []).owed = 0 ∧
    ∃ t, exec (.setWindow 253 0 1 254) (served .hwSerial 5 []) = .next t ∧ t.rsp = 0 :=
  ⟨serving_ready _ _ _, noFailure_ready _ _, rfl, nextMeets_spec (by decide +kernel)⟩
theorem witness_ControllerTakesOrientation : Serving (served .hwSerial 5 []) ∧ NoFailure (served .hwSerial 5 []) ∧
    (served .hwSerial 5 []).owed = 0 ∧
    ∃ t, exec (.setOrientation 270) (served .hwSerial 5 []) = .next t ∧ t.rsp = 0 :=
  ⟨serving_ready _ _ _, noFailure_ready _ _, rfl, nextMeets_spec (by decide +kernel)⟩
/-- The same block with the pixel stream open at the controller. -/
def streaming : State := { served .hwSerial 5 [] with ctl := { controllerAtReset with cmd := some 0x2C } }
theorem witness_ControllerTakesPixelBytes : Serving streaming ∧ NoFailure streaming ∧ streaming.owed = 0 ∧
    streaming.ctl.cmd = some 0x2C ∧ streaming.colorMode = 0x05 ∧
    ∃ t, exec (.sendPixelP16 0x07E0) streaming = .next t ∧ t.rsp = 0 :=
  ⟨⟨rfl, rfl⟩, noFailure_of_nil rfl, rfl, rfl, rfl, nextMeets_spec (by decide +kernel)⟩
theorem witness_ControllerTakesStateCommands : Serving (served .hwSerial 5 []) ∧ NoFailure (served .hwSerial 5 []) ∧
    (served .hwSerial 5 []).owed = 0 ∧
    (∃ t, exec .slpout (served .hwSerial 5 []) = .next t ∧ t.rsp = 0) ∧
    (∃ t, exec .dispon (served .hwSerial 5 []) = .next t ∧ t.rsp = 0) ∧
    ∃ t, exec .colmod (served .hwSerial 5 []) = .next t ∧ nextMeets (fun u => u.rsp = 0) (exec (.data 0x06) t) = true :=
  ⟨serving_ready _ _ _, noFailure_ready _ _, rfl, nextMeets_spec (by decide +kernel), nextMeets_spec (by decide +kernel),
    nextMeets_spec (by decide +kernel)⟩
/-- Both ways to send SWRESET, and each kind of request that sends the next word. -/
theorem witness_SoftwareResetOwesQuietTime : Serving (served .hwSerial 5 []) ∧ NoFailure (served .hwSerial 5 []) ∧
    namedCommand .slpout = some 0x11 ∧
    (∃ t, exec (.sendCmd 0x01) (served .hwSerial 5 []) = .next t ∧
      (nextMeets (fun u => u.rsp = 0) (exec (.sendCmd 0x29) t) = true ∧
        nextMeets (fun u => u.rsp = 0) (exec (.sendData 0x00) t) = true)) ∧
    ∃ t, exec .swreset (served .hwSerial 5 []) = .next t ∧
      (nextMeets (fun u => u.rsp = 0) (exec (.data 0x00) t) = true ∧
        nextMeets (fun u => u.rsp = 0) (exec .slpout t) = true) :=
  ⟨serving_ready _ _ _, noFailure_ready _ _, rfl, nextMeets_spec (by decide +kernel), nextMeets_spec (by decide +kernel)⟩

end Sys2Proof.Tests
end

