-- ==== Sys2Proof/Proofs/Scope.lean ====
section
/-! PROOFS. What a step does with the host's next act (00_scope R7, 30_encoding R98). -/

namespace Sys2Proof.Machine

/-- A step takes the host's next act off the list and serves it. -/
theorem step_of_host_cons {s : State} {a : HostAct} {rest : List HostAct} (hhost : s.host = a :: rest) :
    step s = serve a (s.withHost rest) := by
  simp only [step, hhost]

/-- A presented frame is served by its decoding. -/
theorem step_of_host_present {s : State} {f : Frame} {rest : List HostAct} (hhost : s.host = .present f :: rest) :
    step s = serveFrame f (s.withHost rest) :=
  step_of_host_cons hhost

/-- A frame that decodes to an instruction is served by running that instruction. -/
theorem serveFrame_of_decode_ok {f : Frame} {i : Instr} (hdec : decode f = .ok i) (s : State) :
    serveFrame f s = exec i s := by
  simp only [serveFrame, hdec]

/-- Settles O6: the step serves the presented frame, and serving it runs the instruction it decodes to. -/
theorem stepRunsDecodedInstruction : Obligations.StepRunsDecodedInstruction := by
  unfold Obligations.StepRunsDecodedInstruction
  intro s f i rest hhost hdec
  calc step s = serveFrame f (s.withHost rest) := step_of_host_present hhost
    _ = exec i (s.withHost rest) := serveFrame_of_decode_ok hdec _
    _ = exec i { s with host := rest } := by rw [State.withHost]

end Sys2Proof.Machine
end

section
/-! PROOFS. What every request keeps, the invariant of the machine, and the registers that decide nothing (10_state). Three
tools carry the proofs: what a relation must respect for every request to respect it (`Serves`, from `Composes`), what the
body of a sending request and INIT can end in (`sendingBody_cases`, `steps_completed`), and what a map that hides registers
must satisfy for no instruction to notice (`Hides`). -/

namespace Sys2Proof.Machine

/-! ### What an instruction can do: an answer on the ports, or the end of a procedure -/

/-- The statements of a sending request after its phase check (42_framer R122, R123, 44 to 46, 47_link_commands R180 to
R189); `exec_of_isSending` ties them to `exec`. -/
def sendingBody : Instr → Proc
  | .setOrientation d => setOrientationBody d
  | .setWindow x y w h => setWindowBody x y w h
  | .clear r g b => clearBody ⟨r, g, b⟩
  | .sendPixel r g b => streamPixel ⟨r, g, b⟩
  | .sendPixelP16 p =>
    inOrder [require (fun t => t.colorMode == mode16) .unsupportedMode, sendBytes (pixel16 p)]
  | .sendCmd b => sendCmd b
  | .sendData b | .data b => sendData b
  | .swreset => sendCmd codeSWRESET
  | .slpout => sendCmd codeSLPOUT
  | .dispon => sendCmd codeDISPON
  | .caset => sendCmd codeCASET
  | .raset => sendCmd codeRASET
  | .ramwr => sendCmd codeRAMWR
  | .madctr => sendCmd codeMADCTR
  | .colmod => sendCmd codeCOLMOD
  | .nvctr => sendCmd codeNVCTR
  | .init | .close | .pack565 _ _ _ | .unpack565 _ | .frameCmd _ | .frameData _ => inOrder []

/-- What INIT does once its checks have passed and its transport is built (43_sequencer R130). -/
def initRun : Proc :=
  inOrder [assign (fun t => { t with tpOpen := true, phase := .init }), initSteps,
    assign (fun t => { t with phase := .ready })]

/-- INIT's statements: the checks, the latched configuration, the build, the run (43_sequencer R130). -/
def initBody : Proc := fun s =>
  (initChecks s).andThen fun t => (buildTransport t.latchStraps).andThen initRun

/-- CLOSE's statements (43_sequencer R144). -/
def closeBody : Proc :=
  inOrder [require (fun t => t.phase == .ready || t.phase == .failed) .notReady, assign State.release]

/-- A request as one procedure: the phase check and the body of a sending one, INIT, CLOSE; none for the pure operations. -/
def requestBody (i : Instr) : Proc :=
  match i with
  | .init => initBody
  | .close => closeBody
  | i => inOrder [requireReady, sendingBody i]

/-- Statements grouped at the end of a list run as if they stood in it. -/
theorem andThen_inOrder_single (r : Run) (ps : List Proc) : r.andThen (inOrder [inOrder ps]) = r.andThen (inOrder ps) := by
  cases r with
  | ok s => exact inOrder_single (inOrder ps) s
  | raised e s => rfl
  | stopped f => rfl

/-- A check at the head of a list: the rest runs, or nothing does. -/
theorem inOrder_require_cases (c : State → Bool) (e : Err) (ps : List Proc) (s : State) :
    (c s = true ∧ inOrder (require c e :: ps) s = inOrder ps s) ∨
    (c s = false ∧ inOrder (require c e :: ps) s = .raised e s) := by
  rw [inOrder_cons]
  rcases require_cases c e s with ⟨hc, hr⟩ | ⟨hc, hr⟩
  · exact .inl ⟨hc, by rw [hr, Run.ok_andThen]⟩
  · exact .inr ⟨hc, by rw [hr, Run.raised_andThen]⟩

/-- A sending request is its phase check and its body. -/
theorem exec_of_isSending {i : Instr} (h : isSending i = true) (s : State) :
    exec i s = finish (inOrder [requireReady, sendingBody i] s) := by
  cases i with
  | sendPixelP16 p =>
    show finish (inOrder (requireReady :: _) s) = finish (inOrder [requireReady, inOrder _] s)
    rw [inOrder_cons, inOrder_cons, andThen_inOrder_single]
  | init | close => cases h
  | pack565 | unpack565 | frameCmd | frameData => cases h
  | setOrientation | setWindow | clear | sendPixel | sendCmd | sendData => rfl
  | swreset | slpout | dispon | caset | raset | ramwr | madctr | colmod | nvctr | data => rfl

/-- The pure operations answer a value on the response ports; every other instruction is a request that runs to its end. -/
theorem exec_cases (i : Instr) :
    (∃ v, ∀ s, exec i s = answerPure v s) ∨ ∀ s, exec i s = finish (requestBody i s) := by
  cases i with
  | pack565 | unpack565 | frameCmd | frameData => exact .inl ⟨_, fun _ => rfl⟩
  | init | close => exact .inr fun _ => rfl
  | setOrientation | setWindow | clear | sendPixel | sendPixelP16 | sendCmd | sendData =>
    exact .inr (exec_of_isSending rfl)
  | swreset | slpout | dispon | caset | raset | ramwr | madctr | colmod | nvctr | data =>
    exact .inr (exec_of_isSending rfl)

/-! ### What every request keeps, completed or cut short -/

section
variable {R : State → State → Prop}

/-- An end that holds of every state holds of every run. -/
theorem Run.ends_of_forall {Q : State → Prop} {E : Err → State → Prop} (hq : ∀ t, Q t) (he : ∀ e t, E e t) (r : Run) :
    r.Ends Q E := by
  cases r with
  | ok t => exact hq t
  | raised e t => exact he e t
  | stopped f => trivial

/-- The body of a sending request keeps what its statements keep. -/
theorem Composes.sendingBody (C : Composes R) (ho : ∀ s o, R s { s with orient := o }) (i : Instr) :
    Respects R (sendingBody i) := by
  cases i with
  | setOrientation d => exact C.setOrientationBody ho d
  | setWindow x y w h => exact C.setWindowBody x y w h
  | clear r g b => exact C.clearBody _
  | sendPixel r g b => exact C.streamPixel _
  | sendPixelP16 p =>
    exact C.inOrder (by
      simp only [List.forall_mem_cons]
      exact ⟨Respects.require C.refl _ _, C.sendBytes _, by simp⟩)
  | sendData b | data b => exact C.sendData b
  | sendCmd | swreset | slpout | dispon | caset | raset | ramwr | madctr | colmod | nvctr => exact C.sendCmd _
  | init | close | pack565 | unpack565 | frameCmd | frameData => exact C.refl

/-- INIT's seven steps keep what their statements, the write of `STEP` and the orientation's write keep. -/
theorem Composes.initSteps (C : Composes R) (hstep : ∀ s n, R s { s with stepNo := n })
    (hor : Respects R (initStepBody 6)) : Respects R initSteps := by
  rw [initSteps_eq]
  refine C.inOrder fun p hp => ?_
  obtain ⟨n, _, rfl⟩ := List.mem_map.1 hp
  refine C.inOrder ?_
  simp only [List.forall_mem_cons]
  exact ⟨Respects.assign fun s => hstep s n, initStepBody_respects C hor n, by simp⟩

/-- INIT's checks write nothing. -/
theorem Composes.initChecks (C : Composes R) : Respects R initChecks :=
  C.inOrder (by
    simp only [List.forall_mem_cons]
    exact ⟨Respects.require C.refl _ _, Respects.require C.refl _ _, Respects.require C.refl _ _, by simp⟩)

/-- A relation that every write of a request's procedure respects, those of INIT and CLOSE among them. -/
structure Serves (R : State → State → Prop) : Prop extends Composes R where
  orient : ∀ s o, R s { s with orient := o }
  stepNo : ∀ s n, R s { s with stepNo := n }
  latchStraps : ∀ s, R s s.latchStraps
  build : ∀ s as es, R s ({ s with answers := as }.emitAll es)
  begin : ∀ s, R s { s with tpOpen := true, phase := .init }
  ready : ∀ s, R s { s with phase := .ready }
  release : ∀ s, R s s.release

theorem Serves.buildTransport (S : Serves R) : Respects R buildTransport := by
  intro s
  rcases buildTransport_cases s with ⟨as, _, h⟩ | ⟨as, _, _, h⟩
  · rw [h]; exact S.build s as _
  · rw [h]; exact S.build s as []

theorem Serves.initRun (S : Serves R) : Respects R initRun :=
  S.inOrder (by
    simp only [List.forall_mem_cons]
    exact ⟨Respects.assign S.begin, S.initSteps S.stepNo fun s => S.sendOrientation (fun t => S.orient t _) s,
      Respects.assign S.ready, by simp⟩)

theorem Serves.initBody (S : Serves R) : Respects R initBody :=
  Respects.andThen S.trans S.initChecks <|
    Respects.andThen (p := fun s => Machine.buildTransport s.latchStraps) S.trans
      (Respects.andThen (p := assign State.latchStraps) S.trans (Respects.assign S.latchStraps) S.buildTransport) S.initRun

/-- A request keeps what its statements, the whole of INIT and the release of the handle keep. -/
theorem Composes.requestBody (C : Composes R) (ho : ∀ s o, R s { s with orient := o }) (hinit : Respects R initBody)
    (hrelease : ∀ s, R s s.release) (i : Instr) : Respects R (requestBody i) := by
  have sending : ∀ i, Respects R (Machine.inOrder [requireReady, Machine.sendingBody i]) := fun i =>
    C.inOrder (by
      simp only [List.forall_mem_cons]
      exact ⟨Respects.require C.refl _ _, C.sendingBody ho i, by simp⟩)
  unfold Machine.requestBody
  split
  · exact hinit
  · exact C.inOrder (by
      simp only [List.forall_mem_cons]
      exact ⟨Respects.require C.refl _ _, Respects.assign hrelease, by simp⟩)
  · exact sending _

/-- Every request keeps what its statements keep, completed or cut short. -/
theorem Serves.requestBody (S : Serves R) (i : Instr) : Respects R (requestBody i) :=
  S.toComposes.requestBody S.orient S.initBody S.release i

/-- The end of a request keeps what its procedure keeps, if a response and an error's entry keep it. -/
theorem Respects.finish {p : Proc} (tr : ∀ a b c, R a b → R b c → R a c) (hp : Respects R p)
    (hr : ∀ s, R s (s.respond codeOK)) (he : ∀ e s, R s (s.enter e)) {s t : State} (h : finish (p s) = .next t) :
    R s t := by
  have hs := hp s
  rcases finish_cases h with ⟨u, hu, rfl⟩ | ⟨e, u, hu, rfl⟩
  · rw [hu] at hs
    exact tr _ _ _ hs (hr u)
  · rw [hu] at hs
    exact tr _ _ _ hs (he e u)

end

/-! ### The trace (10_state R42 (6)) -/

/-- No write takes an event away from `TRACE`. -/
theorem tolerates_traceGrows : Tolerates fun s t => s.trace <+: t.trace := by
  constructor
  case trans => exact fun _ _ _ h k => h.trans k
  all_goals intros; simp [State.trace]

theorem serves_traceGrows : Serves fun s t => s.trace <+: t.trace where
  toComposes := tolerates_traceGrows.composes
  orient _ _ := List.prefix_rfl
  stepNo _ _ := List.prefix_rfl
  latchStraps _ := List.prefix_rfl
  build _ _ _ := by simp [State.emitAll_eq, State.trace]
  begin _ := List.prefix_rfl
  ready _ := List.prefix_rfl
  release s := by unfold State.release; split <;> simp [State.trace]

/-- Error entry appends at most the `Close` of a failed INIT (60_exceptions R202). -/
theorem trace_prefix_enter (e : Err) (s : State) : s.trace <+: (s.enter e).trace := by
  cases e with
  | transport =>
    simp only [State.enter, State.failTransport]
    split <;> simp [State.trace, State.respond, State.forgetController]
  | invalidParam | unsupportedMode | notReady => exact List.prefix_rfl

/-- Settles O49: every statement appends or leaves `TRACE`, and so do the response and the error entry. -/
theorem traceOnlyGrows : Obligations.TraceOnlyGrows := by
  unfold Obligations.TraceOnlyGrows
  intro i s t h
  rcases exec_cases i with ⟨v, hp⟩ | hr
  · rw [hp] at h
    cases h
    exact List.prefix_rfl
  · rw [hr] at h
    exact (serves_traceGrows.requestBody i).finish serves_traceGrows.trans (fun _ => List.prefix_rfl) trace_prefix_enter h

/-! ### The error register (10_state R31) -/

theorem serves_err : Serves fun s t => t.err = s.err where
  toComposes := Tolerates.composes (by
    constructor
    case trans => exact fun _ _ _ h k => k.trans h
    all_goals intros; simp)
  orient _ _ := rfl
  stepNo _ _ := rfl
  latchStraps _ := rfl
  build _ _ _ := by rw [State.emitAll_eq]
  begin _ := rfl
  ready _ := rfl
  release := State.release_err

/-- The codes of the error classes are 1 to 4 (60_exceptions R201). -/
theorem errCode_defined (e : Err) : (errCode e).toNat ≤ 4 ∧ errCode e ≠ 0 := by
  cases e <;> decide

/-- Settles O44: a request that completes leaves `ERR`, and an error's entry writes its code to `ERR` and `RSP` alike. -/
theorem errKeepsLastErrorCode : Obligations.ErrKeepsLastErrorCode := by
  unfold Obligations.ErrKeepsLastErrorCode
  intro i s t h
  rcases exec_cases i with ⟨v, hp⟩ | hr
  · rw [hp] at h
    cases h
    exact ⟨Nat.zero_le 4, fun _ => rfl, fun h0 => absurd rfl h0⟩
  · rw [hr] at h
    have herr := serves_err.requestBody i s
    rcases finish_cases h with ⟨u, hu, rfl⟩ | ⟨e, u, hu, rfl⟩
    · rw [hu] at herr
      exact ⟨Nat.zero_le 4, fun _ => herr, fun h0 => absurd rfl h0⟩
    · obtain ⟨hle, hne⟩ := errCode_defined e
      rw [enter_rsp, enter_err]
      exact ⟨hle, fun h0 => absurd h0 hne, fun _ => rfl⟩

/-! ### The latched configuration (10_state R42 (4)) -/

/-- Outside `OFF` the latched configuration stays, and `OFF` is not entered. -/
def KeepsLatched (s t : State) : Prop :=
  s.phase ≠ .off → t.phase ≠ .off ∧
    t.backend = s.backend ∧ t.ids = s.ids ∧ t.colorMode = s.colorMode ∧ t.fg = s.fg ∧ t.bg = s.bg

theorem KeepsLatched.refl (s : State) : KeepsLatched s s := fun h => ⟨h, rfl, rfl, rfl, rfl, rfl⟩

theorem KeepsLatched.trans (a b c : State) (h : KeepsLatched a b) (k : KeepsLatched b c) : KeepsLatched a c := by
  intro ha
  obtain ⟨hb, h1, h2, h3, h4, h5⟩ := h ha
  obtain ⟨hc, k1, k2, k3, k4, k5⟩ := k hb
  exact ⟨hc, k1.trans h1, k2.trans h2, k3.trans h3, k4.trans h4, k5.trans h5⟩

theorem tolerates_keepsLatched : Tolerates KeepsLatched := by
  constructor
  case trans => exact KeepsLatched.trans
  all_goals intros; intro h; simp [h]

/-- Outside `OFF` INIT is rejected before it latches anything (43_sequencer R130). -/
theorem initBody_notOff {s : State} (h : s.phase ≠ .off) : initBody s = .raised .notReady s := by
  have hc : (s.phase == .off) = false := by simpa using h
  simp [initBody, initChecks, require, hc]

theorem initBody_keepsLatched : Respects KeepsLatched initBody := by
  intro s
  by_cases h : s.phase = .off
  · exact Run.ends_of_forall (fun t hs => absurd h hs) (fun e t hs => absurd h hs) _
  · rw [initBody_notOff h]
    exact KeepsLatched.refl s

theorem release_keepsLatched (s : State) : KeepsLatched s s.release := fun _ => by simp

theorem enter_keepsLatched (e : Err) (s : State) : KeepsLatched s (s.enter e) := by
  intro h
  cases e with
  | transport =>
    cases hp : s.phase with
    | off => exact absurd hp h
    | init => simp [enter_transport_init hp]
    | ready => simp [enter_transport_ready hp]
    | failed | closed => simp [State.enter, State.failTransport, State.respond, State.forgetController, hp]
  | invalidParam | unsupportedMode | notReady => exact ⟨h, rfl, rfl, rfl, rfl, rfl⟩

/-- Settles O50: only INIT's latching writes the configuration, and outside `OFF` it is never reached. -/
theorem latchedConfigurationIsFixed : Obligations.LatchedConfigurationIsFixed := by
  unfold Obligations.LatchedConfigurationIsFixed
  intro i s t hs h
  have hk : KeepsLatched s t := by
    rcases exec_cases i with ⟨v, hp⟩ | hr
    · rw [hp] at h
      cases h
      exact KeepsLatched.refl s
    · rw [hr] at h
      exact (tolerates_keepsLatched.composes.requestBody (fun s _ => KeepsLatched.refl s) initBody_keepsLatched
        release_keepsLatched i).finish KeepsLatched.trans (fun s => KeepsLatched.refl s) enter_keepsLatched h
  exact (hk hs).2

/-! ### The invariant: states that have it (10_state R41, R42) -/

/-- The invariant is about neither the ports, the inputs nor the controller side, and of `ERR` it only wants a defined code. -/
theorem Inv.of_untouched {s t : State} (h : Inv s) (ht : t = { s with
      err := t.err, rsp := t.rsp, res := t.res, straps := t.straps, host := t.host, answers := t.answers, ctl := t.ctl
      owed := t.owed, draws := t.draws }) (herr : t.err.toNat ≤ 4) : Inv t := by
  rw [ht]
  exact { h with errDefined := herr }

/-- In `OFF` the invariant says that nothing has been held, counted, sent or driven. -/
theorem inv_of_off {s : State} (hphase : s.phase = .off) (hopen : s.tpOpen = false) (hcounters : s.pixCnt = 0 ∧ s.bitCnt = 0)
    (huntouched : s.stepNo = 0 ∧ s.lines = Lines.undriven ∧ s.lastCmd = none ∧ s.win = none ∧ s.traceRev = [])
    (herr : s.err.toNat ≤ 4) : Inv s := by
  obtain ⟨hstep, hlines, hlast, hwin, htrace⟩ := huntouched
  constructor
  case closedOutside => exact fun _ => hopen
  case countersIdle => exact hcounters
  case backlightUndriven => rw [hlines]; rfl
  case offUntouched => exact fun _ => ⟨hstep, hlines, hlast, hwin, htrace⟩
  case lastCmdMirrors => rw [hlast, State.trace, htrace]; rfl
  case errDefined => exact herr
  all_goals simp [hphase]

/-- Settles O47: after reset the block is in `OFF` and untouched. -/
theorem resetHasInvariant : Obligations.ResetHasInvariant := by
  unfold Obligations.ResetHasInvariant
  exact inv_of_off rfl rfl ⟨rfl, rfl⟩ ⟨rfl, rfl, rfl, rfl, rfl⟩ (Nat.zero_le 4)

/-- Settles O54: each value stands in the reset state. -/
theorem resetValues : Obligations.ResetValues := by
  unfold Obligations.ResetValues
  exact ⟨rfl, rfl, rfl, rfl, rfl, rfl, rfl, rfl, rfl, rfl, rfl, rfl⟩

/-- Block reset leaves the block in `OFF` and untouched (70_reset_and_hazards R230). -/
theorem inv_blockReset (s : State) : Inv s.blockReset :=
  inv_of_off rfl rfl ⟨rfl, rfl⟩ ⟨rfl, rfl, rfl, rfl, rfl⟩ (Nat.zero_le 4)

/-- An error that is no transport failure keeps the invariant (60_exceptions R203 to R205). -/
theorem Inv.rejected {s : State} (h : Inv s) {e : Err} (he : e ≠ .transport) : Inv (s.enter e) := by
  have hr : RejectedWith e s (s.enter e) := enter_rejects he s
  have herr : (s.enter e).err.toNat ≤ 4 := by rw [enter_err]; exact (errCode_defined e).1
  rw [RejectedWith] at hr
  rw [hr] at herr ⊢
  exact h.of_untouched rfl herr

/-! ### What bodies keep of the invariant, completed or cut short -/

theorem Respects.and {R R' : State → State → Prop} {p : Proc} (h : Respects R p) (h' : Respects R' p) :
    Respects (fun s t => R s t ∧ R' s t) p := by
  intro s
  have hs := h s
  have hs' := h' s
  cases hp : p s with
  | ok t => rw [hp] at hs hs'; exact ⟨hs, hs'⟩
  | raised e t => rw [hp] at hs hs'; exact ⟨hs, hs'⟩
  | stopped f => trivial

theorem Composes.and {R R' : State → State → Prop} (C : Composes R) (C' : Composes R') :
    Composes fun s t => R s t ∧ R' s t where
  refl s := ⟨C.refl s, C'.refl s⟩
  trans a b c h k := ⟨C.trans a b c h.1 k.1, C'.trans a b c h.2 k.2⟩
  sendCmd b := (C.sendCmd b).and (C'.sendCmd b)
  sendData b := (C.sendData b).and (C'.sendData b)
  pinWrite l v hl := (C.pinWrite l v hl).and (C'.pinWrite l v hl)
  delay n := (C.delay n).and (C'.delay n)
  win s k := ⟨C.win s k, C'.win s k⟩
  pixCnt s k := ⟨C.pixCnt s k, C'.pixCnt s k⟩

/-- The setup stays, no line is driven that the backend does not own, and `LASTCMD` goes on mirroring the trace. -/
def Steady (s t : State) : Prop :=
  KeepsSetup s t ∧ t.lines.bl = s.lines.bl ∧
    (t.backend = s.backend ∧ (s.backend = .hwSerial →
      t.lines.cs = s.lines.cs ∧ t.lines.sck = s.lines.sck ∧ t.lines.sda = s.lines.sda)) ∧ Mirrors s t

theorem composes_steady : Composes Steady :=
  tolerates_setup.composes.and (tolerates_backlight.composes.and (tolerates_serialLines.composes.and composes_mirrors))

theorem steady_orient (s : State) (o : Orientation) : Steady s { s with orient := o } :=
  ⟨by constructor <;> rfl, rfl, ⟨rfl, fun _ => ⟨rfl, rfl, rfl⟩⟩, id⟩

theorem steady_stepNo (s : State) (n : Fin 8) : Steady s { s with stepNo := n } :=
  ⟨by constructor <;> rfl, rfl, ⟨rfl, fun _ => ⟨rfl, rfl, rfl⟩⟩, id⟩

theorem sendingBody_steady (i : Instr) : Respects Steady (sendingBody i) :=
  composes_steady.sendingBody steady_orient i

theorem initSteps_steady : Respects Steady initSteps :=
  composes_steady.initSteps steady_stepNo fun s => composes_steady.sendOrientation (fun t => steady_orient t _) s

/-- With `HWSERIAL` the word lines that were X stay X. -/
theorem Steady.serialLines {s t : State} (hk : Steady s t) (hs : s.backend = .hwSerial →
    s.lines.cs = .x ∧ s.lines.sck = .x ∧ s.lines.sda = .x) (hb : t.backend = .hwSerial) :
    t.lines.cs = .x ∧ t.lines.sck = .x ∧ t.lines.sda = .x := by
  obtain ⟨_, _, ⟨hback, hlines⟩, _⟩ := hk
  have hb' : s.backend = .hwSerial := hback.symm.trans hb
  obtain ⟨kcs, ksck, ksda⟩ := hlines hb'
  obtain ⟨hcs, hsck, hsda⟩ := hs hb'
  exact ⟨kcs.trans hcs, ksck.trans hsck, ksda.trans hsda⟩

/-! ### Sending requests keep the invariant -/

/-- What a completed body does to the marks: `STEP` stays, `PIXCNT` is back at 0, a window is not forgotten. -/
def KeepsReadyMarks (m : Marks → Marks) : Prop :=
  ∀ a, (m a).stepNo = a.stepNo ∧ (a.pixCnt = 0 → (m a).pixCnt = 0) ∧ (a.win.isSome → (m a).win.isSome)

/-- Marks that a body writes at most in `ORIENT` and `LASTCMD`. -/
theorem keepsReadyMarks_of_same {m : Marks → Marks}
    (h : ∀ a, (m a).stepNo = a.stepNo ∧ (m a).pixCnt = a.pixCnt ∧ (m a).win = a.win) : KeepsReadyMarks m := by
  intro a
  obtain ⟨hstep, hpix, hwin⟩ := h a
  exact ⟨hstep, fun h0 => hpix.trans h0, fun hw => by rw [hwin]; exact hw⟩

/-- A pixel in a mode with pixels has words. -/
theorem pixelWords_ne_nil (a : Pix18Align) {mode : Byte} (hm : mode = mode16 ∨ mode = mode18) (c : Color) :
    pixelWords a mode c ≠ [] := by
  rcases hm with rfl | rfl
  · simp [pixelWords, mode16]
  · cases a <;> simp [pixelWords, mode18]

/-- CLEAR sends its window at least. -/
theorem clearWords_ne_nil (a : Pix18Align) (mode : Byte) (c : Color) : clearWords a mode c ≠ [] := by
  simp [clearWords, windowWords]

/-- A body that sends at least one word and keeps the marks of a ready block. -/
def SendsReady (s : State) (r : Run) : Prop := ∃ m ws, KeepsReadyMarks m ∧ ws ≠ [] ∧ Sends m ws s r

theorem Sends.ready {m : Marks → Marks} {ws : List LinkWord} {s : State} {r : Run} (h : Sends m ws s r) (hne : ws ≠ [])
    (hm : KeepsReadyMarks m) : SendsReady s r :=
  ⟨m, ws, hm, hne, h⟩

/-- The body of a sending request in `READY`: rejected before anything is sent, or sending at least one word. -/
theorem sendingBody_cases {i : Instr} (hi : isSending i = true) {s : State} (ho : s.tpOpen = true)
    (hm : s.colorMode = mode16 ∨ s.colorMode = mode18) :
    (∃ e, e ≠ .transport ∧ sendingBody i s = .raised e s) ∨ SendsReady s (sendingBody i s) := by
  cases i with
  | init | close | pack565 | unpack565 | frameCmd | frameData => cases hi
  | sendCmd | swreset | slpout | dispon | caset | raset | ramwr | madctr | colmod | nvctr =>
    exact .inr ((sendCmd_sends _ ho).ready (by simp) (keepsReadyMarks_of_same fun _ => ⟨rfl, rfl, rfl⟩))
  | sendData b | data b =>
    exact .inr ((sendData_sends b ho).ready (by simp) (keepsReadyMarks_of_same fun _ => ⟨rfl, rfl, rfl⟩))
  | setOrientation d =>
    simp only [sendingBody, setOrientationBody]
    cases orientationOf d with
    | none => exact .inl ⟨.invalidParam, by simp, rfl⟩
    | some o =>
      exact .inr ((sendOrientation_sends o ho).ready (by simp) (keepsReadyMarks_of_same fun _ => ⟨rfl, rfl, rfl⟩))
  | setWindow x y w h =>
    cases hr : (windowSums x y w h).inRange with
    | false => exact .inl ⟨.invalidParam, by simp, setWindowBody_rejects hr s⟩
    | true => exact .inr ((setWindowBody_sends hr ho).ready (by simp [windowWords]) fun _ => ⟨rfl, id, fun _ => rfl⟩)
  | clear r g b =>
    exact .inr ((clearBody_sends _ ho hm).ready (clearWords_ne_nil _ _ _) fun _ => ⟨rfl, fun _ => rfl, fun _ => rfl⟩)
  | sendPixel r g b =>
    exact .inr ((streamPixel_sends _ ho hm).ready (pixelWords_ne_nil _ hm _)
      (keepsReadyMarks_of_same fun _ => ⟨rfl, rfl, rfl⟩))
  | sendPixelP16 p =>
    simp only [sendingBody]
    rcases inOrder_require_cases (fun t => t.colorMode == mode16) .unsupportedMode [sendBytes (pixel16 p)] s with
      ⟨_, hc⟩ | ⟨_, hc⟩
    · rw [hc, inOrder_single]
      exact .inr ((sendBytes_sends _ ho).ready (by simp [pixel16]) (keepsReadyMarks_of_same fun _ => ⟨rfl, rfl, rfl⟩))
    · exact .inl ⟨.unsupportedMode, by simp, hc⟩

/-- Words drive no `RST` (20_memory R53). -/
@[simp] theorem linesAfterWords_rst (k : Backend) (ws : List LinkWord) (ls : Lines) :
    (linesAfterWords k ws ls).rst = ls.rst := by
  induction ws generalizing ls with
  | nil => rfl
  | cons w ws ih => exact (ih (linesAfterWord k w ls)).trans (by cases k <;> rfl)

/-- The idle framing state of the bit-banged lines after words, and the word it shows (20_memory R55). -/
theorem idle_after_words {ws before : List LinkWord} (hne : ws ≠ []) {k : Backend} (hk : k = .bitBang) (ls : Lines) :
    (linesAfterWords k ws ls).cs = .one ∧ (linesAfterWords k ws ls).sck = .one ∧
      ∃ w, (before ++ ws).getLast? = some w ∧ (linesAfterWords k ws ls).sda = levelOf (w.getLsbD 0) := by
  have hlast : ws.getLast? = some (ws.getLast hne) := List.getLast?_eq_some_getLast hne
  rw [hk, linesAfterWords_bitBang hlast]
  exact ⟨rfl, rfl, ws.getLast hne, by rw [List.getLast?_append, hlast]; rfl, rfl⟩

/-- A body that put its words on the link leaves the invariant. -/
theorem Inv.sent {s t : State} (h : Inv s) (hready : s.phase = .ready) {m : Marks → Marks} {ws : List LinkWord}
    (hm : KeepsReadyMarks m) (hne : ws ≠ []) (hd : Done m ws s t) (hk : Steady s t) : Inv (t.respond codeOK) := by
  have ⟨keeps, hbl, _, hmirrors⟩ := hk
  have hphase : t.phase = .ready := keeps.phase.trans hready
  have hstep : t.stepNo = (m s.marks).stepNo := congrArg Marks.stepNo hd.marks
  have hpix : t.pixCnt = (m s.marks).pixCnt := congrArg Marks.pixCnt hd.marks
  have hwin : t.win = (m s.marks).win := congrArg Marks.win hd.marks
  obtain ⟨mstep, mpix, mwin⟩ := hm s.marks
  obtain ⟨pix0, bit0⟩ := h.countersIdle
  obtain ⟨sstep, srst, swin⟩ := h.readyDone hready
  constructor
  case notMidInit => simp [hphase]
  case openWhenReady => exact fun _ => keeps.tpOpen.trans (h.openWhenReady hready)
  case closedOutside => simp [hphase]
  case modeLatched =>
    intro _
    simpa [keeps.colorMode] using h.modeLatched (by simp [hready])
  case countersIdle =>
    refine ⟨hpix.trans (mpix pix0), hd.bitCnt.trans ?_⟩
    rw [bit0, ite_self]
  case backlightUndriven => exact hbl.trans h.backlightUndriven
  case serialLinesUndriven => exact fun _ => hk.serialLines (h.serialLinesUndriven (by simp [hready]))
  case offUntouched => simp [hphase]
  case readyDone =>
    refine fun _ => ⟨(hstep.trans mstep).trans sstep, ?_, ?_⟩
    · show t.lines.rst = .one
      rw [hd.lines, linesAfterWords_rst, srst]
    · show t.win.isSome
      rw [hwin]
      exact mwin swin
  case readyIdle =>
    intro _ hb
    show t.lines.cs = _ ∧ t.lines.sck = _ ∧ ∃ w, (wordsOf t.trace).getLast? = some w ∧ t.lines.sda = _
    rw [hd.lines, hd.trace, wordsOf_append, wordsOf_wordsEvents]
    exact idle_after_words hne (keeps.backend.symm.trans hb) _
  case lastCmdMirrors => exact hmirrors h.lastCmdMirrors
  case errDefined => simpa [keeps.err] using h.errDefined

/-- A body cut short by a transport failure leaves the invariant: the phase is `FAILED` (60_exceptions R202). -/
theorem Inv.failed {s t : State} (h : Inv s) (hready : s.phase = .ready) (hk : Steady s t) : Inv (t.enter .transport) := by
  have ⟨keeps, hbl, _, hmirrors⟩ := hk
  rw [enter_transport_ready (keeps.phase.trans hready)]
  constructor
  case modeLatched =>
    intro _
    simpa [keeps.colorMode] using h.modeLatched (by simp [hready])
  case countersIdle => exact ⟨rfl, rfl⟩
  case backlightUndriven => exact hbl.trans h.backlightUndriven
  case serialLinesUndriven => exact fun _ => hk.serialLines (h.serialLinesUndriven (by simp [hready]))
  case lastCmdMirrors => exact hmirrors h.lastCmdMirrors
  case errDefined => exact (errCode_defined .transport).1
  all_goals simp

/-- A sending request keeps the invariant. -/
theorem Inv.exec_sending {s t : State} (h : Inv s) {i : Instr} (hi : isSending i = true) (ht : exec i s = .next t) :
    Inv t := by
  rw [exec_of_isSending hi] at ht
  by_cases hready : s.phase = .ready
  · rw [ready_runs hready, inOrder_single] at ht
    rcases sendingBody_cases hi (h.openWhenReady hready) (h.modeLatched (by simp [hready])) with
      ⟨e, he, hr⟩ | ⟨m, ws, hm, hne, hs⟩
    · rw [hr] at ht
      cases ht
      exact h.rejected he
    · have hk := sendingBody_steady i s
      rcases finish_cases ht with ⟨u, hu, rfl⟩ | ⟨e, u, hu, rfl⟩
      · rw [hu] at hs hk
        exact h.sent hready hm hne hs hk
      · rw [hu] at hs hk
        obtain ⟨rfl, _⟩ := hs
        exact h.failed hready hk
  · rw [notReady_raises hready] at ht
    cases ht
    exact h.rejected (by simp)

/-! ### CLOSE keeps the invariant -/

/-- CLOSE leaves the lines, the counters and `LASTCMD`, and its `Close` is no word (43_sequencer R144). -/
theorem Inv.released {s : State} (h : Inv s) (hphase : s.phase ≠ .off) : Inv s.release := by
  have htrace : ∃ es, wordsOf es = [] ∧ s.release.trace = s.trace ++ es := by
    unfold State.release
    split
    · exact ⟨[.closed], rfl, by simp [State.trace]⟩
    · exact ⟨[], rfl, by simp [State.trace]⟩
  obtain ⟨es, hes, htr⟩ := htrace
  constructor
  case modeLatched => intro _; simpa using h.modeLatched hphase
  case countersIdle => simpa using h.countersIdle
  case backlightUndriven => simpa using h.backlightUndriven
  case serialLinesUndriven => intro _; simpa using h.serialLinesUndriven hphase
  case lastCmdMirrors => rw [htr, lastCommand_append_of_no_word hes, State.release_lastCmd]; exact h.lastCmdMirrors
  case errDefined => simpa using h.errDefined
  all_goals simp

theorem Inv.responded {s : State} (h : Inv s) (c : BitVec 3) : Inv (s.respond c) :=
  h.of_untouched rfl h.errDefined

/-- CLOSE keeps the invariant. -/
theorem Inv.exec_close {s t : State} (h : Inv s) (ht : exec .close s = .next t) : Inv t := by
  have e : exec .close s = finish (closeBody s) := rfl
  rw [e, closeBody] at ht
  rcases inOrder_require_cases (fun t => t.phase == .ready || t.phase == .failed) .notReady [assign State.release] s with
    ⟨hc, hr⟩ | ⟨_, hr⟩
  · rw [hr] at ht
    cases ht
    have hphase : s.phase ≠ .off := by intro h0; simp [h0] at hc
    exact (h.released hphase).responded _
  · rw [hr] at ht
    cases ht
    exact h.rejected (by simp)

/-! ### INIT keeps the invariant (43_sequencer R130 to R143) -/

/-- INIT's checks: rejected, or the block is in `OFF` and the strap has a mode with pixels (43_sequencer R130). -/
theorem initChecks_cases (s : State) :
    (∃ e, e ≠ .transport ∧ initChecks s = .raised e s) ∨
    (s.phase = .off ∧ (s.straps.colorMode = mode16 ∨ s.straps.colorMode = mode18) ∧ initChecks s = .ok s) := by
  unfold initChecks
  rcases inOrder_require_cases (fun s => s.phase == .off) .notReady _ s with ⟨hphase, hr⟩ | ⟨_, hr⟩
  · rw [hr]
    rcases inOrder_require_cases (fun s => colorModeKnown s.straps.colorMode) .invalidParam _ s with
      ⟨hknown, hr⟩ | ⟨_, hr⟩
    · rw [hr]
      rcases inOrder_require_cases (fun s => s.straps.colorMode != mode12) .unsupportedMode [] s with
        ⟨hnot12, hr⟩ | ⟨_, hr⟩
      · rw [hr]
        refine .inr ⟨by simpa using hphase, ?_, rfl⟩
        simp only [bne_iff_ne, ne_eq] at hnot12
        simpa [colorModeKnown, hnot12] using hknown
      · exact .inl ⟨.unsupportedMode, by simp, hr⟩
    · exact .inl ⟨.invalidParam, by simp, hr⟩
  · exact .inl ⟨.notReady, by simp, hr⟩

/-- The state in which INIT's seven steps start, from an untouched block: the handle is held, the build's events are all of
`TRACE`. -/
structure Begun (s : State) : Prop where
  phase : s.phase = .init
  tpOpen : s.tpOpen = true
  mode : s.colorMode = mode16 ∨ s.colorMode = mode18
  upright : s.orient = .deg0
  counters : s.pixCnt = 0 ∧ s.bitCnt = 0
  lines : s.lines = Lines.undriven
  lastCmd : s.lastCmd = lastCommand s.trace
  err : s.err.toNat ≤ 4

/-- The build's events hold no word (43_sequencer R132). -/
theorem wordsOf_buildEvents (k : Backend) : wordsOf (buildEvents k) = [] := by
  cases k <;> rfl

/-- The seven steps, completed: the last one's marks, its lines and its words are those of `READY`. -/
theorem steps_completed {s t : State} (hb : Begun s)
    (h : StepsRun [1, 2, 3, 4, 5, 6, 7] s (.ok t)) :
    t.stepNo = 7 ∧ t.pixCnt = 0 ∧ t.bitCnt = 0 ∧ t.win.isSome ∧ t.lines.rst = .one ∧
      (t.backend = .bitBang → t.lines.cs = .one ∧ t.lines.sck = .one ∧
        ∃ w, (wordsOf t.trace).getLast? = some w ∧ t.lines.sda = levelOf (w.getLsbD 0)) := by
  obtain ⟨keeps, htrace, _, hmarks, hlines, hbit⟩ := h
  have hstep : t.stepNo = 7 := congrArg Marks.stepNo hmarks
  have hpix : t.pixCnt = 0 := congrArg Marks.pixCnt hmarks
  have hwin : t.win = some ⟨2, 131, 1, 162⟩ := congrArg Marks.win hmarks
  refine ⟨hstep, hpix, hbit.trans (by rw [hb.counters.2, ite_self]), by rw [hwin]; rfl, ?_, fun hk => ?_⟩
  · rw [hlines]
    simp only [List.foldl_cons, List.foldl_nil, stepLines, linesAfterWords_rst]
    cases s.backend <;> rfl
  · have hwords : wordsOf t.trace = wordsOf (s.trace ++ ([1, 2, 3, 4, 5, 6] : List (Fin 8)).flatMap (stepEvents s)) ++
        clearWords s.params.pix18Align s.colorMode s.bg := by
      rw [htrace, ← wordsOf_wordsEvents s.backend (clearWords _ _ _), ← wordsOf_append, List.append_assoc]
      simp only [List.flatMap_cons, List.flatMap_nil, List.append_nil, List.append_assoc, stepEvents]
    rw [hwords, hlines]
    simp only [List.foldl_cons, List.foldl_nil, stepLines]
    exact idle_after_words (clearWords_ne_nil _ _ _) (keeps.backend.symm.trans hk) _

/-- INIT's steps completed: the block is in `READY` with the invariant (43_sequencer R140). -/
theorem Begun.ready {s t : State} (hb : Begun s) (h : StepsRun [1, 2, 3, 4, 5, 6, 7] s (.ok t)) (hk : Steady s t) :
    Inv { t with phase := .ready } := by
  obtain ⟨hstep, hpix, hbit, hwin, hrst, hidle⟩ := steps_completed hb h
  have ⟨keeps, hbl, _, hmirrors⟩ := hk
  constructor
  case openWhenReady => exact fun _ => keeps.tpOpen.trans hb.tpOpen
  case modeLatched => intro _; simpa [keeps.colorMode] using hb.mode
  case countersIdle => exact ⟨hpix, hbit⟩
  case backlightUndriven => exact hbl.trans (by rw [hb.lines]; rfl)
  case serialLinesUndriven => exact fun _ => hk.serialLines fun _ => by rw [hb.lines]; exact ⟨rfl, rfl, rfl⟩
  case readyDone => exact fun _ => ⟨hstep, hrst, hwin⟩
  case readyIdle => exact fun _ => hidle
  case lastCmdMirrors => exact hmirrors hb.lastCmd
  case errDefined => simpa [keeps.err] using hb.err
  all_goals simp

/-- INIT's steps cut short: the handle is released, the phase is `FAILED` (43_sequencer R143, 60_exceptions R202). -/
theorem Begun.failed {s t : State} (hb : Begun s) (hk : Steady s t) : Inv (t.enter .transport) := by
  have ⟨keeps, hbl, _, hmirrors⟩ := hk
  rw [enter_transport_init (keeps.phase.trans hb.phase)]
  constructor
  case modeLatched => intro _; simpa [keeps.colorMode] using hb.mode
  case countersIdle => exact ⟨rfl, rfl⟩
  case backlightUndriven => exact hbl.trans (by rw [hb.lines]; rfl)
  case serialLinesUndriven => exact fun _ => hk.serialLines fun _ => by rw [hb.lines]; exact ⟨rfl, rfl, rfl⟩
  case lastCmdMirrors =>
    have hm : t.lastCmd = lastCommand (t.trace ++ [.closed]) := by
      rw [lastCommand_append_of_no_word rfl]
      exact hmirrors hb.lastCmd
    simpa [State.trace] using hm
  case errDefined => exact (errCode_defined .transport).1
  all_goals simp

/-- INIT once the transport is built: the steps run to `READY` or are cut short. -/
theorem Begun.finish_steps {s t : State} (hb : Begun s)
    (ht : finish ((initSteps s).andThen (inOrder [assign fun t => { t with phase := .ready }])) = .next t) : Inv t := by
  have hrun := steps_run [1, 2, 3, 4, 5, 6, 7] hb.tpOpen hb.mode hb.upright
  rw [← initSteps_eq] at hrun
  have hk := initSteps_steady s
  cases hr : initSteps s with
  | ok u =>
    rw [hr] at hrun hk ht
    cases ht
    exact (hb.ready hrun hk).responded _
  | raised e u =>
    rw [hr] at hrun hk ht
    obtain ⟨rfl, _⟩ := hrun
    cases ht
    exact hb.failed hk
  | stopped f =>
    rw [hr] at hrun
    exact hrun.elim

/-- A built transport on an untouched block is where INIT's steps start. -/
theorem Inv.begun {s : State} (h : Inv s) (hoff : s.phase = .off)
    (hmode : s.straps.colorMode = mode16 ∨ s.straps.colorMode = mode18) (as : List Bool) (k : Backend) :
    Begun { { s.latchStraps with answers := as }.emitAll (buildEvents k) with tpOpen := true, phase := .init } := by
  obtain ⟨_, hlines, hlast, _, htrace⟩ := h.offUntouched hoff
  rw [State.emitAll_eq]
  refine ⟨rfl, rfl, hmode, rfl, h.countersIdle, hlines, ?_, h.errDefined⟩
  have hwords : lastCommand (buildEvents k) = none := by rw [lastCommand, wordsOf_buildEvents]; rfl
  simpa [State.trace, htrace, hwords] using hlast

/-- INIT keeps the invariant. -/
theorem Inv.exec_init {s t : State} (h : Inv s) (ht : exec .init s = .next t) : Inv t := by
  have e : exec .init s = finish (initBody s) := rfl
  rw [e, initBody] at ht
  rcases initChecks_cases s with ⟨e, he, hr⟩ | ⟨hoff, hmode, hr⟩
  · rw [hr] at ht
    cases ht
    exact h.rejected he
  · rw [hr, Run.ok_andThen] at ht
    rcases buildTransport_cases s.latchStraps with ⟨as, _, hbuild⟩ | ⟨as, _, _, hbuild⟩
    · rw [hbuild] at ht
      exact (h.begun hoff hmode as _).finish_steps ht
    · rw [hbuild, Run.raised_andThen, finish_raised,
        enter_transport_off (s := { s.latchStraps with answers := as }) hoff] at ht
      cases ht
      exact inv_of_off hoff (h.closedOutside (.inl hoff)) ⟨rfl, rfl⟩ (h.offUntouched hoff) (errCode_defined .transport).1

/-! ### Every step keeps the invariant -/

/-- Every instruction keeps the invariant. -/
theorem Inv.exec {s t : State} (h : Inv s) (i : Instr) (ht : exec i s = .next t) : Inv t := by
  cases i with
  | init => exact h.exec_init ht
  | close => exact h.exec_close ht
  | pack565 | unpack565 | frameCmd | frameData =>
    cases ht
    exact h.of_untouched rfl h.errDefined
  | setOrientation | setWindow | clear | sendPixel | sendPixelP16 | sendCmd | sendData => exact h.exec_sending rfl ht
  | swreset | slpout | dispon | caset | raset | ramwr | madctr | colmod | nvctr | data => exact h.exec_sending rfl ht

/-- Serving a frame keeps the invariant: an unnamed command word is served as SEND_CMD is (47_link_commands R190). -/
theorem Inv.serveFrame {s t : State} (h : Inv s) (f : Frame) (ht : serveFrame f s = .next t) : Inv t := by
  cases hdec : decode f with
  | ok i =>
    rw [serveFrame_of_decode_ok hdec] at ht
    exact h.exec i ht
  | reservedOp op =>
    simp only [Machine.serveFrame, hdec] at ht
    cases ht
    exact h.rejected (by simp)
  | unnamedCommand code =>
    simp only [Machine.serveFrame, hdec] at ht
    exact h.exec (.sendCmd code) ht

/-- Settles O46: each act of the host keeps the invariant; for a request it is the case split of `Inv.exec`. -/
theorem stepKeepsInvariant : Obligations.StepKeepsInvariant := by
  unfold Obligations.StepKeepsInvariant
  intro s t h ht
  cases hhost : s.host with
  | nil =>
    simp only [step, hhost] at ht
    cases ht
    exact h
  | cons a rest =>
    rw [step_of_host_cons hhost] at ht
    have h' : Inv (s.withHost rest) := h.of_untouched rfl h.errDefined
    cases a with
    | present f => exact h'.serveFrame f ht
    | drive p | pause ms =>
      cases ht
      exact h'.of_untouched rfl h'.errDefined
    | blockReset =>
      cases ht
      exact inv_blockReset _

/-! ### Registers that decide nothing: the machine seen with some registers hidden -/

/-- A run as seen through `e`, which hides registers. -/
def Run.seen (e : State → State) : Run → Run
  | .ok s => .ok (e s)
  | .raised c s => .raised c (e s)
  | .stopped f => .stopped f

/-- A write whose outcome, seen through `e`, is the same whatever `e` hides. -/
def Unseen (e : State → State) (f : State → State) : Prop := ∀ s, e (f s) = e (f (e s))

/-- A procedure whose run, seen through `e`, is the same whatever `e` hides. -/
def Blind (e : State → State) (p : Proc) : Prop := ∀ s, (p s).seen e = (p (e s)).seen e

section
variable {e : State → State}

theorem Unseen.comp {f g : State → State} (hf : Unseen e f) (hg : Unseen e g) : Unseen e fun s => g (f s) := fun s =>
  calc e (g (f s)) = e (g (e (f s))) := hg _
    _ = e (g (e (f (e s)))) := by rw [hf s]
    _ = e (g (f (e s))) := (hg _).symm

/-- Writes that look the same do so from states that look alike. -/
theorem Unseen.congr {f : State → State} (hf : Unseen e f) {s s' : State} (hs : e s = e s') : e (f s) = e (f s') := by
  rw [hf s, hs, ← hf s']

/-- A blind procedure runs alike from states that look alike. -/
theorem Blind.congr {p : Proc} (h : Blind e p) {s s' : State} (hs : e s = e s') : (p s).seen e = (p s').seen e := by
  rw [h s, hs, ← h s']

/-- Runs that look alike end alike. -/
theorem Run.seen_eq_cases {r r' : Run} (h : r.seen e = r'.seen e) :
    (∃ s s', r = .ok s ∧ r' = .ok s' ∧ e s = e s') ∨
    (∃ c s s', r = .raised c s ∧ r' = .raised c s' ∧ e s = e s') ∨ ∃ f, r = .stopped f ∧ r' = .stopped f := by
  cases r with
  | ok s =>
    cases r' with
    | ok s' => exact .inl ⟨s, s', rfl, rfl, Run.ok.inj h⟩
    | raised | stopped => cases h
  | raised c s =>
    cases r' with
    | raised c' s' =>
      obtain ⟨rfl, hs⟩ := Run.raised.inj h
      exact .inr (.inl ⟨c, s, s', rfl, rfl, hs⟩)
    | ok | stopped => cases h
  | stopped f =>
    cases r' with
    | stopped f' =>
      obtain rfl := Run.stopped.inj h
      exact .inr (.inr ⟨f, rfl, rfl⟩)
    | ok | raised => cases h

/-- Going on with a blind procedure after runs that look alike. -/
theorem Blind.andThen_congr {q : Proc} (hq : Blind e q) {r r' : Run} (h : r.seen e = r'.seen e) :
    (r.andThen q).seen e = (r'.andThen q).seen e := by
  rcases Run.seen_eq_cases h with ⟨s, s', rfl, rfl, hs⟩ | ⟨c, s, s', rfl, rfl, _⟩ | ⟨f, rfl, rfl⟩
  · exact hq.congr hs
  · exact h
  · exact h

theorem Blind.andThen {p q : Proc} (hp : Blind e p) (hq : Blind e q) : Blind e fun s => (p s).andThen q :=
  fun s => hq.andThen_congr (hp s)

theorem Blind.assign {f : State → State} (hf : Unseen e f) : Blind e (assign f) :=
  fun s => congrArg Run.ok (hf s)

/-- What a map of states must satisfy to hide only registers that decide nothing: it shows what the statements read, and each
write looks the same whatever it hides. -/
structure Hides (e : State → State) : Prop where
  idem : ∀ s, e (e s) = e s
  phase : ∀ s, (e s).phase = s.phase
  tpOpen : ∀ s, (e s).tpOpen = s.tpOpen
  backend : ∀ s, (e s).backend = s.backend
  colorMode : ∀ s, (e s).colorMode = s.colorMode
  orient : ∀ s, (e s).orient = s.orient
  bg : ∀ s, (e s).bg = s.bg
  params : ∀ s, (e s).params = s.params
  straps : ∀ s, (e s).straps = s.straps
  answers : ∀ s, (e s).answers = s.answers
  writeBitCnt : ∀ n, Unseen e fun s => { s with bitCnt := n }
  writePixCnt : ∀ n, Unseen e fun s => { s with pixCnt := n }
  writeStepNo : ∀ n, Unseen e fun s => { s with stepNo := n }
  writeOrient : ∀ o, Unseen e fun s => { s with orient := o }
  writeLastCmd : ∀ k, Unseen e fun s => { s with lastCmd := k }
  writeWin : ∀ k, Unseen e fun s => { s with win := k }
  writeErr : ∀ c, Unseen e fun s => { s with err := c }
  writePhase : ∀ p, Unseen e fun s => { s with phase := p }
  writeTpOpen : ∀ b, Unseen e fun s => { s with tpOpen := b }
  takeAnswer : Unseen e State.takeAnswer
  latch : ∀ l v, Unseen e (State.latch l v)
  wire : ∀ l v, Unseen e (State.wire l v)
  emit : ∀ ev, Unseen e (State.emit ev)
  deliver : ∀ w, Unseen e (State.deliver w)
  pause : ∀ n, Unseen e (State.pause n)
  forgetController : Unseen e State.forgetController
  latchStraps : Unseen e State.latchStraps
  respond : ∀ c, Unseen e (State.respond c)
  answerPorts : ∀ v, Unseen e fun s => { s with rsp := codeOK, res := v }

/-! Statement by statement: what the block runs is blind to what such a map hides. -/

theorem Hides.nothing (H : Hides e) : Blind e (inOrder []) := fun s => congrArg Run.ok (H.idem s).symm

theorem Hides.inOrder (H : Hides e) {ps : List Proc} (h : ∀ p ∈ ps, Blind e p) : Blind e (inOrder ps) := by
  induction ps with
  | nil => exact H.nothing
  | cons p ps ih => exact (h p (by simp)).andThen (ih fun q hq => h q (by simp [hq]))

theorem Hides.raised (H : Hides e) (c : Err) : Blind e (Run.raised c) := fun s =>
  congrArg (Run.raised c) (H.idem s).symm

theorem Hides.require (H : Hides e) {c : State → Bool} (hc : ∀ s, c (e s) = c s) (er : Err) : Blind e (require c er) := by
  intro s
  unfold Machine.require
  rw [hc]
  split
  · exact H.nothing s
  · exact H.raised er s

theorem Hides.callSucceeds (H : Hides e) (s : State) : (e s).callSucceeds = s.callSucceeds := by
  rw [State.callSucceeds, State.callSucceeds, H.answers]

theorem Hides.configured (H : Hides e) (s : State) (l : Line) : (e s).configured l = s.configured l := by
  rw [State.configured, State.configured, H.tpOpen, H.backend]

theorem Hides.capabilityCall (H : Hides e) : Blind e capabilityCall := by
  intro s
  unfold Machine.capabilityCall
  rw [H.callSucceeds]
  split
  · exact congrArg Run.ok (H.takeAnswer s)
  · exact congrArg (Run.raised .transport) (H.takeAnswer s)

theorem Hides.capabilityCalls (H : Hides e) (n : Nat) : Blind e (capabilityCalls n) := by
  induction n with
  | zero => exact H.nothing
  | succ n ih => exact H.capabilityCall.andThen ih

theorem Hides.pinWrite (H : Hides e) (l : Line) (v : Bool) : Blind e (pinWrite l v) := by
  intro s
  unfold Machine.pinWrite
  rw [H.configured, H.callSucceeds]
  split
  · split
    · exact congrArg Run.ok (((H.takeAnswer.comp (H.latch l _)).comp (H.wire l v)).comp (H.emit _) s)
    · exact congrArg (Run.raised .transport) (H.takeAnswer.comp (H.latch l _) s)
  · rfl

theorem Hides.delay (H : Hides e) (n : Nat) : Blind e (delay n) := by
  intro s
  unfold Machine.delay
  split
  · exact H.nothing s
  · exact congrArg Run.ok ((H.pause n).comp (H.emit _) s)

theorem Hides.bbBits (H : Hides e) (v : LinkWord) (n : Nat) : Blind e (bbBits v n) := by
  induction n with
  | zero => exact H.nothing
  | succ n ih =>
    refine H.inOrder ?_
    simp only [List.forall_mem_cons]
    exact ⟨Blind.assign (H.writeBitCnt _), H.pinWrite _ _, H.pinWrite _ _, H.pinWrite _ _, ih, by simp⟩

theorem Hides.bbSend (H : Hides e) (v : LinkWord) : Blind e (bbSend v) :=
  H.inOrder (by
    simp only [List.forall_mem_cons]
    exact ⟨H.pinWrite _ _, H.bbBits v 9, H.pinWrite _ _, Blind.assign (H.writeBitCnt 0), by simp⟩)

theorem Hides.linkSend (H : Hides e) (w : LinkWord) : Blind e (linkSend w) := by
  have through : ∀ k : Backend, Blind e (match k with | .hwSerial => hwSend w | .bitBang => Machine.bbSend w) := fun k =>
    match k with
    | .hwSerial => H.capabilityCall
    | .bitBang => H.bbSend w
  intro s
  unfold Machine.linkSend
  rw [H.tpOpen, H.backend]
  split
  · refine H.inOrder ?_ s
    simp only [List.forall_mem_cons]
    exact ⟨through _, Blind.assign ((H.deliver w).comp (H.emit _)), by simp⟩
  · rfl

theorem Hides.sendCmd (H : Hides e) (b : Byte) : Blind e (sendCmd b) :=
  H.inOrder (by simp only [List.forall_mem_cons]; exact ⟨H.linkSend _, Blind.assign (H.writeLastCmd _), by simp⟩)

theorem Hides.sendData (H : Hides e) (b : Byte) : Blind e (sendData b) := H.linkSend _

theorem Hides.sendBytes (H : Hides e) (bs : List Byte) : Blind e (sendBytes bs) := by
  induction bs with
  | nil => exact H.nothing
  | cons b bs ih => exact (H.sendData b).andThen ih

theorem Hides.streamPixel (H : Hides e) (c : Color) : Blind e (streamPixel c) := by
  intro s
  unfold Machine.streamPixel
  rw [H.colorMode, H.params]
  split
  · exact H.sendBytes _ s
  · split
    · exact H.sendBytes _ s
    · split
      · exact H.raised _ s
      · rfl

theorem Hides.sendWindow (H : Hides e) (v : Window) : Blind e (sendWindow v) :=
  H.inOrder (by
    simp only [List.forall_mem_cons]
    exact ⟨H.sendCmd _, H.sendBytes _, H.sendCmd _, H.sendBytes _, H.sendCmd _, Blind.assign (H.writeWin _), by simp⟩)

theorem Hides.setWindowBody (H : Hides e) (x y w h : Half) : Blind e (setWindowBody x y w h) :=
  H.inOrder (by
    simp only [List.forall_mem_cons]
    exact ⟨H.require (fun _ => rfl) _, H.sendWindow _, by simp⟩)

theorem Hides.clearLoop (H : Hides e) (c : Color) (n : Nat) : Blind e (clearLoop c n) := by
  induction n with
  | zero => exact H.nothing
  | succ n ih =>
    refine H.inOrder ?_
    simp only [List.forall_mem_cons]
    exact ⟨Blind.assign (H.writePixCnt _), H.streamPixel c, ih, by simp⟩

theorem Hides.clearBody (H : Hides e) (c : Color) : Blind e (clearBody c) :=
  H.inOrder (by
    simp only [List.forall_mem_cons]
    exact ⟨H.require (fun s => by rw [H.colorMode]) _, H.setWindowBody _ _ _ _, H.clearLoop c _,
      Blind.assign (H.writePixCnt 0), by simp⟩)

/-- A procedure that reads something shown. -/
theorem Blind.read {α : Type} {g : State → α} (hg : ∀ s, g (e s) = g s) {p : α → Proc} (hp : ∀ a, Blind e (p a)) :
    Blind e fun s => p (g s) s := by
  intro s
  simp only [hg]
  exact hp (g s) s

theorem Hides.sendOrientation (H : Hides e) (o : Orientation) : Blind e (sendOrientation o) :=
  H.inOrder (by
    simp only [List.forall_mem_cons]
    exact ⟨H.sendCmd _, Blind.read H.params fun p => H.sendData (madctrByte p o), Blind.assign (H.writeOrient o), by simp⟩)

theorem Hides.setOrientationBody (H : Hides e) (d : Half) : Blind e (setOrientationBody d) := by
  unfold Machine.setOrientationBody
  split
  · exact H.sendOrientation _
  · exact H.raised _

theorem Hides.sendingBody (H : Hides e) (i : Instr) : Blind e (sendingBody i) := by
  cases i with
  | setOrientation d => exact H.setOrientationBody d
  | setWindow x y w h => exact H.setWindowBody x y w h
  | clear r g b => exact H.clearBody _
  | sendPixel r g b => exact H.streamPixel _
  | sendPixelP16 p =>
    exact H.inOrder (by
      simp only [List.forall_mem_cons]
      exact ⟨H.require (fun s => by rw [H.colorMode]) _, H.sendBytes _, by simp⟩)
  | sendData b | data b => exact H.sendData b
  | sendCmd | swreset | slpout | dispon | caset | raset | ramwr | madctr | colmod | nvctr => exact H.sendCmd _
  | init | close | pack565 | unpack565 | frameCmd | frameData => exact H.nothing

theorem Hides.powerReset (H : Hides e) : Blind e powerReset := by
  intro s
  unfold Machine.powerReset
  rw [H.backend]
  cases s.backend with
  | hwSerial =>
    refine H.inOrder ?_ s
    simp only [List.forall_mem_cons]
    exact ⟨H.pinWrite _ _, H.delay _, H.pinWrite _ _, H.delay _, by simp⟩
  | bitBang =>
    refine H.inOrder ?_ s
    simp only [List.forall_mem_cons]
    exact ⟨H.pinWrite _ _, H.pinWrite _ _, H.delay _, H.pinWrite _ _, H.pinWrite _ _, H.delay _, H.pinWrite _ _,
      H.pinWrite _ _, by simp⟩

theorem Hides.initStepBody (H : Hides e) (n : Fin 8) : Blind e (initStepBody n) :=
  match n with
  | 0 => H.nothing
  | 1 => H.powerReset
  | 2 => H.inOrder (by simp only [List.forall_mem_cons]; exact ⟨H.sendCmd _, H.delay _, by simp⟩)
  | 3 => H.inOrder (by
      simp only [List.forall_mem_cons]
      exact ⟨H.sendCmd _, Blind.read H.colorMode H.sendData, by simp⟩)
  | 4 => H.inOrder (by
      simp only [List.forall_mem_cons]
      exact ⟨H.sendCmd _, Blind.read H.params fun p => H.delay p.slpoutMs, by simp⟩)
  | 5 => H.sendCmd _
  | 6 => Blind.read H.orient H.sendOrientation
  | 7 => Blind.read H.bg H.clearBody

theorem Hides.initSteps (H : Hides e) : Blind e initSteps := by
  rw [initSteps_eq]
  refine H.inOrder fun p hp => ?_
  obtain ⟨n, _, rfl⟩ := List.mem_map.1 hp
  refine H.inOrder ?_
  simp only [List.forall_mem_cons]
  exact ⟨Blind.assign (H.writeStepNo n), H.initStepBody n, by simp⟩

theorem Hides.emitAll (H : Hides e) (es : List Event) : Unseen e (State.emitAll es) := by
  induction es with
  | nil => exact fun s => (H.idem s).symm
  | cons ev es ih => exact (H.emit ev).comp ih

theorem Hides.buildTransport (H : Hides e) : Blind e buildTransport :=
  Blind.read (p := fun k =>
    Machine.inOrder [Machine.capabilityCalls (buildCalls k), assign (State.emitAll (buildEvents k))]) H.backend fun _ =>
      H.inOrder (by
        simp only [List.forall_mem_cons]
        exact ⟨H.capabilityCalls _, Blind.assign (H.emitAll _), by simp⟩)

theorem Hides.initChecks (H : Hides e) : Blind e initChecks :=
  H.inOrder (by
    simp only [List.forall_mem_cons]
    exact ⟨H.require (fun s => by rw [H.phase]) _, H.require (fun s => by rw [H.straps]) _,
      H.require (fun s => by rw [H.straps]) _, by simp⟩)

theorem Hides.initRun (H : Hides e) : Blind e initRun :=
  H.inOrder (by
    simp only [List.forall_mem_cons]
    exact ⟨Blind.assign ((H.writeTpOpen true).comp (H.writePhase .init)), H.initSteps, Blind.assign (H.writePhase .ready),
      by simp⟩)

theorem Hides.initBody (H : Hides e) : Blind e initBody :=
  H.initChecks.andThen <|
    Blind.andThen (p := fun s => Machine.buildTransport s.latchStraps)
      ((Blind.assign H.latchStraps).andThen H.buildTransport) H.initRun

theorem Hides.release (H : Hides e) : Unseen e State.release := by
  intro s
  unfold State.release
  by_cases hopen : s.tpOpen = true
  · rw [if_pos hopen, if_pos ((H.tpOpen s).trans hopen)]
    exact (((H.writeTpOpen false).comp (H.writePhase .closed)).comp (H.emit .closed)) s
  · rw [if_neg hopen, if_neg fun h => hopen ((H.tpOpen s).symm.trans h)]
    exact H.writePhase .closed s

theorem Hides.requestBody (H : Hides e) (i : Instr) : Blind e (requestBody i) := by
  have sending : ∀ i, Blind e (Machine.inOrder [requireReady, Machine.sendingBody i]) := fun i =>
    H.inOrder (by
      simp only [List.forall_mem_cons]
      exact ⟨H.require (fun s => by rw [H.phase]) _, H.sendingBody i, by simp⟩)
  unfold Machine.requestBody
  split
  · exact H.initBody
  · exact H.inOrder (by
      simp only [List.forall_mem_cons]
      exact ⟨H.require (fun s => by rw [H.phase]) _, Blind.assign H.release, by simp⟩)
  · exact sending _

theorem Hides.failTransport (H : Hides e) : Unseen e State.failTransport := by
  intro s
  unfold State.failTransport
  rw [H.phase]
  cases s.phase with
  | init => exact (((H.writeTpOpen false).comp (H.writePhase .failed)).comp (H.emit .closed)) s
  | off => exact (H.idem s).symm
  | ready | failed | closed => exact H.writePhase .failed s

theorem Hides.enter (H : Hides e) (c : Err) : Unseen e (State.enter c) := by
  have recorded := (H.writeErr (errCode c)).comp (H.respond (errCode c))
  cases c with
  | transport =>
    exact (((recorded.comp (H.writePixCnt 0)).comp (H.writeBitCnt 0)).comp H.forgetController).comp H.failTransport
  | invalidParam | unsupportedMode | notReady => exact recorded

/-- Runs that look alike end in outcomes that look alike. -/
theorem Hides.finish (H : Hides e) {r r' : Run} (h : r.seen e = r'.seen e) {t : State} (ht : finish r = .next t) :
    ∃ t', finish r' = .next t' ∧ e t' = e t := by
  rcases Run.seen_eq_cases h with ⟨u, u', rfl, rfl, hu⟩ | ⟨c, u, u', rfl, rfl, hu⟩ | ⟨f, rfl, rfl⟩
  · cases ht
    exact ⟨_, rfl, ((H.respond codeOK).congr hu).symm⟩
  · cases ht
    exact ⟨_, rfl, ((H.enter c).congr hu).symm⟩
  · cases ht

/-- From states that look alike every instruction leads to states that look alike. -/
theorem Hides.exec (H : Hides e) (i : Instr) {s s' t : State} (hs : e s = e s') (ht : exec i s = .next t) :
    ∃ t', exec i s' = .next t' ∧ e t' = e t := by
  rcases exec_cases i with ⟨v, hp⟩ | hr
  · rw [hp] at ht ⊢
    cases ht
    exact ⟨_, rfl, ((H.answerPorts v).congr hs).symm⟩
  · rw [hr] at ht ⊢
    exact H.finish ((H.requestBody i).congr hs) ht

end

/-! ### The shadow registers (10_state R25, R29, R31, R34, R35) -/

/-- `s` with `ERR`, `LASTCMD`, `WIN`, `FG` and `STEP` hidden. -/
def State.withoutShadow (s : State) : State :=
  { s with err := 0, lastCmd := none, win := none, fg := colorZero, stepNo := 0 }

/-- No statement reads a shadow register, and each write to one writes a value that does not depend on them. -/
theorem hides_shadow : Hides State.withoutShadow :=
  { idem := fun _ => rfl, phase := fun _ => rfl, tpOpen := fun _ => rfl, backend := fun _ => rfl,
    colorMode := fun _ => rfl, orient := fun _ => rfl, bg := fun _ => rfl, params := fun _ => rfl,
    straps := fun _ => rfl, answers := fun _ => rfl, writeBitCnt := fun _ _ => rfl, writePixCnt := fun _ _ => rfl,
    writeStepNo := fun _ _ => rfl, writeOrient := fun _ _ => rfl, writeLastCmd := fun _ _ => rfl,
    writeWin := fun _ _ => rfl, writeErr := fun _ _ => rfl, writePhase := fun _ _ => rfl, writeTpOpen := fun _ _ => rfl,
    takeAnswer := fun _ => rfl, latch := fun _ _ _ => rfl, wire := fun l v _ => by cases l <;> cases v <;> rfl,
    emit := fun _ _ => rfl, deliver := fun _ _ => rfl, pause := fun _ _ => rfl, forgetController := fun _ => rfl,
    latchStraps := fun _ => rfl, respond := fun _ _ => rfl, answerPorts := fun _ _ => rfl }

/-- States that differ at most in the shadow registers. -/
theorem eq_of_withoutShadow_eq {t t' : State} (h : t'.withoutShadow = t.withoutShadow) :
    t' = { t with err := t'.err, lastCmd := t'.lastCmd, win := t'.win, fg := t'.fg, stepNo := t'.stepNo } :=
  calc t' = { t'.withoutShadow with
        err := t'.err, lastCmd := t'.lastCmd, win := t'.win, fg := t'.fg, stepNo := t'.stepNo } := rfl
    _ = { t.withoutShadow with
        err := t'.err, lastCmd := t'.lastCmd, win := t'.win, fg := t'.fg, stepNo := t'.stepNo } := by rw [h]

/-- Settles O52: no instruction reads what `State.withoutShadow` hides. -/
theorem shadowRegistersDecideNothing : Obligations.ShadowRegistersDecideNothing := by
  unfold Obligations.ShadowRegistersDecideNothing
  intro i s t e k w c n ht
  obtain ⟨t', ht', heq⟩ := hides_shadow.exec i (s := s)
    (s' := { s with err := e, lastCmd := k, win := w, fg := c, stepNo := n }) rfl ht
  exact ⟨t', ht', eq_of_withoutShadow_eq heq⟩

end Sys2Proof.Machine
end

section
/-! PROOFS. The transport (20_memory): a pin write and a hold, what a receiver makes of a word's pins, and one word on each
backend, completed or cut short by the call that fails. -/

namespace Sys2Proof.Machine

/-! ### A pin write and a hold (20_memory R72, R73) -/

/-- A line the transport build configures as an output on the backend in use (43_sequencer R132). -/
theorem configured_of_open {s : State} {l : Line} (ho : s.tpOpen = true) (hl : s.backend = .bitBang ∨ l = .rst ∨ l = .bl) :
    s.configured l = true := by
  rcases hl with hb | rfl | rfl
  · exact configured_of_bitBang ho hb l
  · exact configured_rst ho
  · cases hb : s.backend <;> simp [State.configured, configuredLines, ho, hb]

/-- What a successful pin write leaves of the registers (20_memory R73): the latch, the event, the answer used, and of the
controller side what `State.wire` gives. -/
theorem pinWritten_frame (s : State) (l : Line) (v : Bool) :
    ((s.takeAnswer.latch l (levelOf v)).wire l v).emit (.pin l v) =
      { s with
        lines := s.lines.set l (levelOf v), traceRev := .pin l v :: s.traceRev, answers := s.answers.tail
        ctl := (s.wire l v).ctl, owed := (s.wire l v).owed, draws := (s.wire l v).draws } := by
  cases l with
  | rst => cases v <;> rfl
  | cs | sck | sda | bl => rfl

/-- Settles O19: the two ends of a pin write, and of its wire the three cases: another line, `RST` low, `RST` high. -/
theorem pinWriteSetsLatchOrLeavesX : Obligations.PinWriteSetsLatchOrLeavesX := by
  unfold Obligations.PinWriteSetsLatchOrLeavesX
  intro s l v ho hl
  rcases pinWrite_cases v (configured_of_open ho hl) with ⟨hc, hr⟩ | ⟨hc, hr⟩
  · refine ⟨fun _ => ⟨_, hr, ?_⟩, fun hf => absurd (hc.symm.trans hf) (by simp)⟩
    rw [pinWritten_frame]
    refine ⟨rfl, by simp [State.trace], rfl, fun hne => ?_, ?_, ?_⟩
    · simp only [wire_other hne, and_self]
    · rintro rfl rfl
      exact ⟨rfl, rfl⟩
    · rintro rfl rfl
      exact ⟨rfl, rfl⟩
  · exact ⟨fun ht => absurd (hc.symm.trans ht) (by simp), fun _ => hr⟩

/-- Settles O20: `Delay(n)` has no branch that raises, and at 0 none that writes. -/
theorem delayAppendsWait : Obligations.DelayAppendsWait := by
  unfold Obligations.DelayAppendsWait
  refine fun s => ⟨rfl, fun n hn => ⟨({ s with owed := s.owed - n } : State).emit (.wait n), if_neg hn, ?_, rfl⟩⟩
  rw [State.emit_trace]
  rfl

/-! ### What a receiver makes of a word's pins (20_memory R53, R54) -/

/-- With chip-select low and the clock high, the three writes of a bit end with the clock high and the bit taken once. -/
theorem see_bitPins (b d : Bool) (taken : List Bool) :
    (bitPins b).foldl Receiver.see ⟨false, true, d, taken⟩ = ⟨false, true, b, taken ++ [b]⟩ := rfl

/-- The receiver takes the low `n` bits of the word, bit `n - 1` first. -/
theorem see_bitsPins (v : LinkWord) (n : Nat) (d : Bool) (taken : List Bool) :
    ∃ d', (bitsPins v n).foldl Receiver.see ⟨false, true, d, taken⟩ =
      ⟨false, true, d', taken ++ (List.range n).reverse.map v.getLsbD⟩ := by
  induction n generalizing d taken with
  | zero => exact ⟨d, by simp [bitsPins]⟩
  | succ n ih =>
    obtain ⟨d', h⟩ := ih (v.getLsbD n) (taken ++ [v.getLsbD n])
    refine ⟨d', ?_⟩
    rw [bitsPins, List.foldl_append, see_bitPins, h]
    simp [List.range_succ]

/-- The nine bits of a word, bit 8 first, are that word. -/
theorem wordOfBits_bits (v : LinkWord) : wordOfBits ((List.range 9).reverse.map v.getLsbD) = some v := by
  rw [wordOfBits, if_pos (by simp)]
  refine congrArg some (BitVec.eq_of_getLsbD_eq fun i hi => ?_)
  have hlen : 8 - (8 - i) = i := by omega
  simp [hi, hlen]

/-- Three writes a bit. -/
theorem bitsPins_length (v : LinkWord) (n : Nat) : (bitsPins v n).length = 3 * n := by
  induction n with
  | zero => rfl
  | succ n ih =>
    rw [bitsPins, List.length_append, ih, bitPins]
    simp
    omega

/-- The 29 writes of a word (20_memory R53). -/
theorem wordPins_length (v : LinkWord) : (wordPins v).length = 29 := by
  simp [wordPins, bitsPins_length]

/-- Settles O15: between the two chip-select writes the receiver takes each bit once, from bit 8 down. -/
theorem wordPinsDecodeBack : Obligations.WordPinsDecodeBack := by
  unfold Obligations.WordPinsDecodeBack
  refine fun v sda => ⟨wordPins_length v, ?_⟩
  obtain ⟨d', h⟩ := see_bitsPins v 9 sda []
  have hsee : (wordPins v).foldl Receiver.see ⟨true, true, sda, []⟩ =
      ⟨true, true, d', (List.range 9).reverse.map v.getLsbD⟩ :=
    calc (wordPins v).foldl Receiver.see ⟨true, true, sda, []⟩
        = (bitsPins v 9 ++ [Event.pin .cs true]).foldl Receiver.see ⟨false, true, sda, []⟩ := rfl
      _ = Receiver.see ⟨false, true, d', [] ++ (List.range 9).reverse.map v.getLsbD⟩ (.pin .cs true) := by
        rw [List.foldl_append, h]; rfl
      _ = ⟨true, true, d', (List.range 9).reverse.map v.getLsbD⟩ := rfl
  rw [decodePins, hsee, wordOfBits_bits]

/-! ### One word, completed (20_memory R51, R52, R53, R55) -/

/-- A body that leaves the marks touches the lines, `BITCNT`, `TRACE`, the answers and the controller side at most. -/
theorem KeepsSetup.frame {s t : State} (k : KeepsSetup s t) (hm : t.marks = s.marks) :
    t = { s with
      lines := t.lines, bitCnt := t.bitCnt, traceRev := t.traceRev, answers := t.answers, ctl := t.ctl, owed := t.owed
      draws := t.draws } := by
  obtain ⟨horient, hstep, hpix, hlast, hwin⟩ := Marks.mk.inj hm
  apply State.ext
  case backend => exact k.backend
  case ids => exact k.ids
  case colorMode => exact k.colorMode
  case orient => exact horient
  case fg => exact k.fg
  case bg => exact k.bg
  case phase => exact k.phase
  case stepNo => exact hstep
  case pixCnt => exact hpix
  case err => exact k.err
  case tpOpen => exact k.tpOpen
  case lastCmd => exact hlast
  case win => exact hwin
  case rsp => exact k.rsp
  case res => exact k.res
  case straps => exact k.straps
  case params => exact k.params
  case host => exact k.host
  all_goals rfl

/-- Settles O16: `linkSend_sends` for one word, with no failure ahead. -/
theorem linkSendCompletes : Obligations.LinkSendCompletes := by
  unfold Obligations.LinkSendCompletes
  intro w s ho hn
  obtain ⟨t, ht, hd⟩ := (linkSend_sends w ho).completes hn
  have htrace : t.trace = s.trace ++ wordEvents s.backend w := by simpa [wordsEvents] using hd.trace
  have hlines : t.lines = linesAfterWord s.backend w s.lines := hd.lines
  have hbit : t.bitCnt = if s.backend = .bitBang then 0 else s.bitCnt := by simpa using hd.bitCnt
  refine ⟨t, ht, htrace, ?_⟩
  rw [← hlines, ← hbit]
  exact hd.keeps.frame hd.marks

/-! ### One word, cut short by the call that fails (20_memory R70, R73) -/

/-- `LinkSend` on the serial backend (20_memory R52). -/
theorem linkSend_hwSerial (w : LinkWord) {s : State} (ho : s.tpOpen = true) (hb : s.backend = .hwSerial) :
    linkSend w s = (capabilityCall s).andThen (inOrder [assign fun t => (t.deliver w).emit (.w9 w)]) := by
  rw [linkSend, if_pos ho, hb, inOrder_cons, hwSend]

/-- `LinkSend` on the bit-banged backend (20_memory R53). -/
theorem linkSend_bitBang (w : LinkWord) {s : State} (ho : s.tpOpen = true) (hb : s.backend = .bitBang) :
    linkSend w s = (bbSend w s).andThen (inOrder [assign fun t => (t.deliver w).emit (.w9 w)]) := by
  rw [linkSend, if_pos ho, hb, inOrder_cons]

/-- Settles O18: a `sendWord` is one capability call, and `W9` comes after it. -/
theorem failedSendWordLeavesNothing : Obligations.FailedSendWordLeavesNothing := by
  unfold Obligations.FailedSendWordLeavesNothing
  intro w s rest ho hb ha
  have hcall : capabilityCall s = .raised .transport { s with answers := rest } := by
    simp [capabilityCall, State.callSucceeds, State.takeAnswer, ha]
  rw [linkSend_hwSerial w ho hb, hcall, Run.raised_andThen]

/-- A latch just set. -/
@[simp] theorem Lines.get_set_self (l : Line) (v : Level) (ls : Lines) : (ls.set l v).get l = v := by
  cases l <;> rfl

/-- What a run of the pin writes `es` on the bit-banged backend ends in, counted in the environment's answers: as many
successes as events and all events left, or the first failure at answer `n`, the events before it left, the latch of the failing
write at X. -/
def Counted (es : List Event) (s : State) : Run → Prop
  | .ok t => t.tpOpen = true ∧ t.backend = .bitBang ∧ t.trace = s.trace ++ es ∧ false ∉ s.answers.take es.length ∧
      t.answers = s.answers.drop es.length
  | .raised _ t => ∃ n, n < es.length ∧ t.trace = s.trace ++ es.take n ∧ false ∉ s.answers.take n ∧
      s.answers.drop n = false :: t.answers ∧ ∀ l v, es[n]? = some (.pin l v) → t.lines.get l = .x
  | .stopped _ => False

/-- A procedure that makes the pin writes `es`. -/
def Plays (es : List Event) (p : Proc) : Prop :=
  ∀ s : State, s.tpOpen = true → s.backend = .bitBang → Counted es s (p s)

/-- Sequencing counts on. -/
theorem Plays.andThen {es es' : List Event} {p q : Proc} (hp : Plays es p) (hq : Plays es' q) :
    Plays (es ++ es') fun s => (p s).andThen q := by
  intro s ho hb
  have h := hp s ho hb
  show Counted _ s ((p s).andThen q)
  cases hr : p s with
  | stopped f => rw [hr] at h; exact h.elim
  | raised e t =>
    rw [hr] at h
    obtain ⟨n, hn, htrace, hbefore, hat, hlatch⟩ := h
    refine ⟨n, by simp; omega, ?_, hbefore, hat, fun l v hl => hlatch l v ?_⟩
    · rw [htrace, List.take_append_of_le_length (by omega)]
    · rwa [List.getElem?_append_left hn] at hl
  | ok t =>
    rw [hr] at h
    obtain ⟨ho', hb', htrace, hbefore, hanswers⟩ := h
    have hk := hq t ho' hb'
    rw [Run.ok_andThen]
    have later : ∀ n, false ∉ t.answers.take n → false ∉ s.answers.take (es.length + n) := fun n hn => by
      rw [List.take_add, List.mem_append, ← hanswers]
      exact fun h => h.elim hbefore hn
    cases hr' : q t with
    | stopped f => rw [hr'] at hk; exact hk.elim
    | ok u =>
      rw [hr'] at hk
      obtain ⟨ho'', hb'', ktrace, kbefore, kanswers⟩ := hk
      refine ⟨ho'', hb'', by rw [ktrace, htrace, List.append_assoc], ?_, ?_⟩
      · rw [List.length_append]; exact later _ kbefore
      · rw [kanswers, hanswers, List.drop_drop, List.length_append]
    | raised e u =>
      rw [hr'] at hk
      obtain ⟨n, hn, ktrace, kbefore, kat, klatch⟩ := hk
      refine ⟨es.length + n, by simp; omega, ?_, later n kbefore, ?_, fun l v hl => klatch l v ?_⟩
      · rw [ktrace, htrace, List.take_length_add_append, List.append_assoc]
      · rw [← List.drop_drop, ← hanswers, kat]
      · rwa [List.getElem?_append_right (by omega), Nat.add_sub_cancel_left] at hl

/-- No write at all. -/
theorem plays_nothing : Plays [] (inOrder []) := fun s ho hb => ⟨ho, hb, by simp, by simp, rfl⟩

/-- The bit counter is no line. -/
theorem plays_bitCnt (n : Nat) : Plays [] (assign fun s => { s with bitCnt := n }) :=
  fun s ho hb => ⟨ho, hb, by simp [State.trace], by simp, rfl⟩

/-- One write: the next answer decides (20_memory R73). -/
theorem plays_pinWrite (l : Line) (v : Bool) : Plays [.pin l v] (pinWrite l v) := by
  intro s ho hb
  rcases pinWrite_cases v (configured_of_bitBang ho hb l) with ⟨hc, hr⟩ | ⟨hc, hr⟩
  · rw [hr, pinWritten_frame]
    refine ⟨ho, hb, by simp [State.trace], ?_, by simp⟩
    cases ha : s.answers <;> simp_all [State.callSucceeds]
  · rw [hr]
    refine ⟨0, by simp, by simp, by simp, ?_, ?_⟩
    · cases ha : s.answers <;> simp_all [State.callSucceeds]
    · rintro l' v' hl
      cases hl
      simp

/-- The bit loop's writes (20_memory R53). -/
theorem plays_bbBits (v : LinkWord) (n : Nat) : Plays (bitsPins v n) (bbBits v n) := by
  induction n with
  | zero => exact plays_nothing
  | succ n ih =>
    have h := (plays_bitCnt (8 - n)).andThen <| (plays_pinWrite .sda (v.getLsbD n)).andThen <|
      (plays_pinWrite .sck false).andThen <| (plays_pinWrite .sck true).andThen <| ih.andThen plays_nothing
    rw [List.append_nil] at h
    exact h

/-- A word's writes (20_memory R53). -/
theorem plays_bbSend (v : LinkWord) : Plays (wordPins v) (bbSend v) :=
  (plays_pinWrite .cs false).andThen <| (plays_bbBits v 9).andThen <|
    (plays_pinWrite .cs true).andThen <| (plays_bitCnt 0).andThen plays_nothing

/-- Where the first failure stands in the answers is determined by them. -/
theorem first_failure_unique {answers rest rest' : List Bool} {k n : Nat}
    (hk : answers = List.replicate k true ++ false :: rest) (hbefore : false ∉ answers.take n)
    (hat : answers.drop n = false :: rest') : n = k ∧ rest' = rest := by
  have hle : n ≤ k := by
    by_contra hlt
    refine hbefore (List.mem_take_iff_getElem.2 ⟨k, ?_, ?_⟩)
    · simp [hk]; omega
    · simp [hk]
  have hge : k ≤ n := by
    by_contra hlt
    have h0 : answers[n]? = some false := by rw [← List.head?_drop, hat]; rfl
    rw [hk, List.getElem?_append_left (by simp; omega), List.getElem?_replicate, if_pos (by omega)] at h0
    simp at h0
  obtain rfl : n = k := by omega
  refine ⟨rfl, ?_⟩
  rw [hk, List.drop_left' (by simp)] at hat
  exact (List.cons.inj hat).2.symm

/-- Settles O17: the answers place the failing write at `k` (`Counted`), and the writes leave setup and marks (`Writes`). -/
theorem failedPinWriteCutsWordShort : Obligations.FailedPinWriteCutsWordShort := by
  unfold Obligations.FailedPinWriteCutsWordShort
  intro w s k rest ho hb hk ha
  have hcount := plays_bbSend w s ho hb
  have hwrites := bbSend_writes w ho hb
  rw [linkSend_bitBang w ho hb]
  cases hr : bbSend w s with
  | stopped f => rw [hr] at hcount; exact hcount.elim
  | ok t =>
    rw [hr, Counted, wordPins_length, ha] at hcount
    obtain ⟨_, _, _, hbefore, _⟩ := hcount
    refine absurd (List.mem_take_iff_getElem.2 ⟨k, ?_, ?_⟩) hbefore
    · simp; omega
    · simp
  | raised e t =>
    rw [hr] at hcount hwrites
    obtain ⟨n, _, htrace, hbefore, hat, hlatch⟩ := hcount
    obtain ⟨rfl, hcut, hmarks⟩ := hwrites
    obtain ⟨rfl, hrest⟩ := first_failure_unique ha hbefore hat
    exact ⟨t, rfl, htrace, hrest, hlatch, hcut.keeps.frame hmarks⟩

end Sys2Proof.Machine
end

section
/-! PROOFS. Whole requests on the link (20_memory): nothing of the block reads the controller side, no step stops from a state
with the invariant, and what decides the words of a request. The body of a sending request is rejected, puts words on the link,
or never ends well, and which of these it does is fixed by the colour mode and the parameters (`sendingBody_outcomes`). -/

namespace Sys2Proof.Machine

/-! ### The controller side is never read (20_memory R58) -/

/-- `s` with the controller-side registers and the quiet time owed to them hidden. -/
def State.withoutController (s : State) : State := { s with ctl := controllerAtReset, owed := 0 }

/-- No statement reads the controller side, and no write to it shows anywhere else: a word, a reset by wire and a failure draw
one free value each whatever it holds. -/
theorem hides_controller : Hides State.withoutController := by
  constructor
  case wire => exact fun l v _ => by cases l <;> cases v <;> rfl
  all_goals (repeat intro _); rfl

/-- States that differ at most in the controller side. -/
theorem eq_of_withoutController_eq {t t' : State} (h : t'.withoutController = t.withoutController) :
    t' = { t with ctl := t'.ctl, owed := t'.owed } :=
  calc t' = { t'.withoutController with ctl := t'.ctl, owed := t'.owed } := rfl
    _ = { t.withoutController with ctl := t'.ctl, owed := t'.owed } := by rw [h]

/-- Settles O51: no instruction reads what `State.withoutController` hides. -/
theorem blockNeverReadsController : Obligations.BlockNeverReadsController := by
  unfold Obligations.BlockNeverReadsController
  intro i s t c n ht
  obtain ⟨t', ht', heq⟩ := hides_controller.exec i (s := s) (s' := { s with ctl := c, owed := n }) rfl ht
  exact ⟨t', ht', eq_of_withoutController_eq heq⟩

/-! ### No step stops (20_memory R51, R73, 60_exceptions R208) -/

/-- A run that breaks no precondition is answered. -/
theorem finish_next {r : Run} (h : ∀ f, r ≠ .stopped f) : ∃ t, finish r = .next t := by
  cases r with
  | ok s => exact ⟨_, rfl⟩
  | raised e s => exact ⟨_, rfl⟩
  | stopped f => exact absurd rfl (h f)

/-- A body that sends breaks no precondition. -/
theorem Sends.ne_stopped {m : Marks → Marks} {ws : List LinkWord} {s : State} {r : Run} (h : Sends m ws s r) (f : Fault) :
    r ≠ .stopped f := by
  rintro rfl
  exact h

/-- With the invariant the handle is held and the mode has pixels whenever a sending request is served. -/
theorem Inv.exec_sending_next {s : State} (h : Inv s) {i : Instr} (hi : isSending i = true) :
    ∃ t, Machine.exec i s = .next t := by
  rw [exec_of_isSending hi]
  by_cases hready : s.phase = .ready
  · rw [ready_runs hready, inOrder_single]
    rcases sendingBody_cases hi (h.openWhenReady hready) (h.modeLatched (by simp [hready])) with
      ⟨e, _, hr⟩ | ⟨m, ws, _, _, hs⟩
    · rw [hr]
      exact ⟨_, rfl⟩
    · exact finish_next hs.ne_stopped
  · rw [notReady_raises hready]
    exact ⟨_, rfl⟩

/-- INIT and CLOSE are the ends of their statements (43_sequencer R130, R144). -/
theorem exec_init_eq (s : State) : exec .init s = finish (initBody s) := rfl

theorem exec_close_eq (s : State) : exec .close s = finish (closeBody s) := rfl

/-- INIT past its build: the handle is held, the steps run, the phase is `READY` (43_sequencer R130). -/
theorem initRun_eq (s : State) : initRun s = (initSteps { s with tpOpen := true, phase := .init }).andThen
    (inOrder [assign fun t => { t with phase := .ready }]) := rfl

/-- INIT's steps, started on a built transport, break no precondition. -/
theorem Begun.initRun_next {s : State} (hb : Begun { s with tpOpen := true, phase := .init }) :
    ∃ t, finish (initRun s) = .next t := by
  have hrun := steps_run [1, 2, 3, 4, 5, 6, 7] hb.tpOpen hb.mode hb.upright
  rw [← initSteps_eq] at hrun
  refine finish_next fun f => ?_
  rw [initRun_eq]
  cases hr : initSteps { s with tpOpen := true, phase := .init } with
  | ok u => simp
  | raised e u => simp
  | stopped f =>
    rw [hr] at hrun
    exact hrun.elim

/-- INIT is rejected, fails to build, or runs its steps. -/
theorem Inv.exec_init_next {s : State} (h : Inv s) : ∃ t, Machine.exec .init s = .next t := by
  rw [exec_init_eq, initBody]
  rcases initChecks_cases s with ⟨e, _, hr⟩ | ⟨hoff, hmode, hr⟩
  · rw [hr]
    exact ⟨_, rfl⟩
  · rw [hr, Run.ok_andThen]
    rcases buildTransport_cases s.latchStraps with ⟨as, _, hbuild⟩ | ⟨as, _, _, hbuild⟩
    · rw [hbuild]
      exact (h.begun hoff hmode as _).initRun_next
    · rw [hbuild]
      exact ⟨_, rfl⟩

/-- CLOSE is rejected or releases the handle. -/
theorem exec_close_next (s : State) : ∃ t, exec .close s = .next t := by
  rw [exec_close_eq, closeBody]
  rcases inOrder_require_cases (fun t => t.phase == .ready || t.phase == .failed) .notReady [assign State.release] s with
    ⟨_, hr⟩ | ⟨_, hr⟩
  · rw [hr]
    exact ⟨_, rfl⟩
  · rw [hr]
    exact ⟨_, rfl⟩

/-- With the invariant every instruction is answered. -/
theorem Inv.exec_next {s : State} (h : Inv s) (i : Instr) : ∃ t, Machine.exec i s = .next t := by
  cases i with
  | init => exact h.exec_init_next
  | close => exact exec_close_next s
  | pack565 | unpack565 | frameCmd | frameData => exact ⟨_, rfl⟩
  | setOrientation | setWindow | clear | sendPixel | sendPixelP16 | sendCmd | sendData => exact h.exec_sending_next rfl
  | swreset | slpout | dispon | caset | raset | ramwr | madctr | colmod | nvctr | data => exact h.exec_sending_next rfl

/-- Settles O48: every act of the host is answered; for a frame it is `Inv.exec_next`, an unnamed command word being sent as
SEND_CMD sends it (47_link_commands R190). -/
theorem stepNeverStops : Obligations.StepNeverStops := by
  unfold Obligations.StepNeverStops
  intro s h
  cases hhost : s.host with
  | nil => exact ⟨s, by simp only [step, hhost]⟩
  | cons a rest =>
    rw [step_of_host_cons hhost]
    have h' : Inv (s.withHost rest) := h.of_untouched rfl h.errDefined
    cases a with
    | drive p | pause ms | blockReset => exact ⟨_, rfl⟩
    | present f =>
      show ∃ t, serveFrame f (s.withHost rest) = .next t
      cases hdec : decode f with
      | ok i =>
        rw [serveFrame_of_decode_ok hdec]
        exact h'.exec_next i
      | reservedOp op =>
        simp only [serveFrame, hdec]
        exact ⟨_, rfl⟩
      | unnamedCommand code =>
        simp only [serveFrame, hdec]
        exact h'.exec_next (.sendCmd code)

/-! ### Bodies without the handle, or in a mode that does not exist (20_memory R51, 45_pixel_streaming R162) -/

section
variable {s : State}

/-- `LinkSend` requires the handle (20_memory R51). -/
theorem linkSend_closed (w : LinkWord) (h : s.tpOpen = false) : linkSend w s = .stopped .transportNotOpen := by
  rw [linkSend, if_neg (by simp [h])]

theorem sendCmd_closed (b : Byte) (h : s.tpOpen = false) : sendCmd b s = .stopped .transportNotOpen := by
  rw [sendCmd, inOrder_cons, linkSend_closed _ h, Run.stopped_andThen]

theorem sendBytes_closed {bs : List Byte} (hne : bs ≠ []) (h : s.tpOpen = false) :
    sendBytes bs s = .stopped .transportNotOpen := by
  cases bs with
  | nil => exact absurd rfl hne
  | cons b bs => exact congrArg (Run.andThen · (sendBytes bs)) (linkSend_closed (dataWord b) h)

theorem sendOrientation_closed (o : Orientation) (h : s.tpOpen = false) :
    sendOrientation o s = .stopped .transportNotOpen := by
  rw [sendOrientation, inOrder_cons, sendCmd_closed _ h, Run.stopped_andThen]

theorem setWindowBody_closed {x y w hh : Half} (hr : (windowSums x y w hh).inRange = true) (h : s.tpOpen = false) :
    setWindowBody x y w hh s = .stopped .transportNotOpen := by
  rw [setWindowBody, inOrder_cons, require_pass (c := fun _ => (windowSums x y w hh).inRange) hr, Run.ok_andThen,
    inOrder_cons, sendWindow, inOrder_cons, sendCmd_closed _ h, Run.stopped_andThen, Run.stopped_andThen]

theorem streamPixel_closed (c : Color) (hm : s.colorMode = mode16 ∨ s.colorMode = mode18) (h : s.tpOpen = false) :
    streamPixel c s = .stopped .transportNotOpen := by
  unfold streamPixel
  rcases hm with hm | hm
  · rw [if_pos hm]
    exact sendBytes_closed (by simp [pixel16]) h
  · rw [if_neg (by rw [hm]; decide), if_pos hm]
    exact sendBytes_closed (by cases s.params.pix18Align <;> simp [pix666]) h

/-- `COLORMODE` outside its three values has no pixel (45_pixel_streaming R162). -/
theorem streamPixel_unknown (c : Color) (h16 : s.colorMode ≠ mode16) (h18 : s.colorMode ≠ mode18)
    (h12 : s.colorMode ≠ mode12) : streamPixel c s = .stopped .colorModeOutsideEnumeration := by
  rw [streamPixel, if_neg h16, if_neg h18, if_neg h12]

/-- The full-panel window is in range (44_window_clear R152). -/
theorem panel_inRange :
    (windowSums 0 0 (BitVec.ofNat 16 Config.panelW) (BitVec.ofNat 16 Config.panelH)).inRange = true := by
  decide

/-- CLEAR outside 12-bit mode starts with its window (44_window_clear R152). -/
theorem clearBody_runs (c : Color) (h12 : s.colorMode ≠ mode12) : clearBody c s =
    (setWindowBody 0 0 (BitVec.ofNat 16 Config.panelW) (BitVec.ofNat 16 Config.panelH) s).andThen
      (inOrder [clearLoop c Config.clearPixels, assign (fun s => { s with pixCnt := 0 })]) := by
  rw [clearBody, inOrder_cons, require_pass (by simpa using h12), Run.ok_andThen, inOrder_cons]

theorem clearBody_closed (c : Color) (h12 : s.colorMode ≠ mode12) (h : s.tpOpen = false) :
    clearBody c s = .stopped .transportNotOpen := by
  rw [clearBody_runs c h12, setWindowBody_closed panel_inRange h, Run.stopped_andThen]

/-- CLEAR's loop stops at its first pixel in a mode that does not exist. -/
theorem clearLoop_unknown (c : Color) {n : Nat} (hn : n ≠ 0) (h16 : s.colorMode ≠ mode16) (h18 : s.colorMode ≠ mode18)
    (h12 : s.colorMode ≠ mode12) : clearLoop c n s = .stopped .colorModeOutsideEnumeration := by
  obtain ⟨k, rfl⟩ := Nat.exists_eq_succ_of_ne_zero hn
  have hpixel := streamPixel_unknown (s := { s with pixCnt := Config.clearPixels - (k + 1) }) c h16 h18 h12
  rw [clearLoop, inOrder_cons, assign_apply, Run.ok_andThen, inOrder_cons, hpixel, Run.stopped_andThen]

/-- With no failure ahead CLEAR stops there after its window, if not before it. -/
theorem clearBody_unknown (c : Color) (hn : NoFailure s) (h16 : s.colorMode ≠ mode16) (h18 : s.colorMode ≠ mode18)
    (h12 : s.colorMode ≠ mode12) : ∃ f, clearBody c s = .stopped f := by
  cases ho : s.tpOpen with
  | false => exact ⟨_, clearBody_closed c h12 ho⟩
  | true =>
    obtain ⟨t, ht, hd⟩ := (setWindowBody_sends panel_inRange ho).completes hn
    have hm : t.colorMode = s.colorMode := hd.keeps.colorMode
    refine ⟨.colorModeOutsideEnumeration, ?_⟩
    rw [clearBody_runs c h12, ht, Run.ok_andThen, inOrder_cons,
      clearLoop_unknown c (by decide) (by rwa [hm]) (by rwa [hm]) (by rwa [hm]), Run.stopped_andThen]

end

/-! ### What decides the outcome of a sending request's body -/

/-- The parameters and the colour mode of a state: all that bodies read to choose their words. -/
def HasMode (a : Params) (mode : Byte) (s : State) : Prop := s.params = a ∧ s.colorMode = mode

/-- The body is rejected before it does anything. -/
def RejectedIn (a : Params) (mode : Byte) (p : Proc) : Prop :=
  ∃ e, e ≠ .transport ∧ ∀ s, HasMode a mode s → p s = .raised e s

/-- The body sends the words `ws` through the handle, and stops without it. -/
def SendsIn (a : Params) (mode : Byte) (ws : List LinkWord) (p : Proc) : Prop :=
  ∃ m, ∀ s, HasMode a mode s →
    (s.tpOpen = true → Sends m ws s (p s)) ∧ (s.tpOpen = false → p s = .stopped .transportNotOpen)

/-- The body stops if no call of it fails. -/
def StopsIn (a : Params) (mode : Byte) (p : Proc) : Prop :=
  ∀ s, HasMode a mode s → NoFailure s → ∃ f, p s = .stopped f

/-- The parameters and the colour mode decide which of the three a sending request's body does, and its words. -/
theorem sendingBody_outcomes {i : Instr} (hi : isSending i = true) (a : Params) (mode : Byte) :
    RejectedIn a mode (sendingBody i) ∨ (∃ ws, SendsIn a mode ws (sendingBody i)) ∨ StopsIn a mode (sendingBody i) := by
  have modes : (mode = mode16 ∨ mode = mode18) ∨ mode = mode12 ∨ (mode ≠ mode16 ∧ mode ≠ mode18 ∧ mode ≠ mode12) := by
    tauto
  cases i with
  | init | close | pack565 | unpack565 | frameCmd | frameData => cases hi
  | sendCmd | swreset | slpout | dispon | caset | raset | ramwr | madctr | colmod | nvctr =>
    exact .inr (.inl ⟨_, _, fun s _ => ⟨sendCmd_sends _, sendCmd_closed _⟩⟩)
  | sendData b | data b => exact .inr (.inl ⟨_, _, fun s _ => ⟨sendData_sends b, linkSend_closed _⟩⟩)
  | setOrientation d =>
    simp only [sendingBody, setOrientationBody]
    cases orientationOf d with
    | none => exact .inl ⟨.invalidParam, by simp, fun _ _ => rfl⟩
    | some o =>
      refine .inr (.inl ⟨[commandWord codeMADCTR, dataWord (madctrByte a o)],
        fun m => { m with lastCmd := some codeMADCTR, orient := o }, ?_⟩)
      rintro s ⟨rfl, _⟩
      exact ⟨sendOrientation_sends o, sendOrientation_closed o⟩
  | setWindow x y w h =>
    cases hr : (windowSums x y w h).inRange with
    | false => exact .inl ⟨.invalidParam, by simp, fun s _ => setWindowBody_rejects hr s⟩
    | true => exact .inr (.inl ⟨_, _, fun s _ => ⟨setWindowBody_sends hr, setWindowBody_closed hr⟩⟩)
  | clear r g b =>
    rcases modes with hm | hm | ⟨h16, h18, h12⟩
    · have h12 : mode ≠ mode12 := by rcases hm with rfl | rfl <;> decide
      refine .inr (.inl ⟨clearWords a.pix18Align mode ⟨r, g, b⟩, marksAfterClear, ?_⟩)
      rintro s ⟨rfl, rfl⟩
      exact ⟨fun ho => clearBody_sends _ ho hm, clearBody_closed _ h12⟩
    · exact .inl ⟨.unsupportedMode, by simp, fun s hs => clearBody_unsupported _ (hs.2.trans hm)⟩
    · refine .inr (.inr ?_)
      rintro s ⟨_, rfl⟩ hn
      exact clearBody_unknown _ hn h16 h18 h12
  | sendPixel r g b =>
    rcases modes with hm | hm | ⟨h16, h18, h12⟩
    · refine .inr (.inl ⟨pixelWords a.pix18Align mode ⟨r, g, b⟩, id, ?_⟩)
      rintro s ⟨rfl, rfl⟩
      exact ⟨fun ho => streamPixel_sends _ ho hm, streamPixel_closed _ hm⟩
    · exact .inl ⟨.unsupportedMode, by simp, fun s hs => streamPixel_unsupported _ (hs.2.trans hm)⟩
    · refine .inr (.inr ?_)
      rintro s ⟨_, rfl⟩ _
      exact ⟨_, streamPixel_unknown _ h16 h18 h12⟩
  | sendPixelP16 p =>
    have hne : pixel16 p ≠ [] := by simp [pixel16]
    by_cases hm : mode = mode16
    · refine .inr (.inl ⟨(pixel16 p).map dataWord, id, fun s hs => ?_⟩)
      have hrun : sendingBody (.sendPixelP16 p) s = sendBytes (pixel16 p) s := by
        rw [sendingBody, inOrder_cons, require_pass (by simpa using hs.2.trans hm), Run.ok_andThen, inOrder_single]
      rw [hrun]
      exact ⟨sendBytes_sends _, sendBytes_closed hne⟩
    · refine .inl ⟨.unsupportedMode, by simp, fun s hs => ?_⟩
      rw [sendingBody, inOrder_cons, require_fail (by simpa [hs.2] using hm), Run.raised_andThen]

/-! ### A failed request's trace (20_memory R70) -/

/-- Code 1 is the transport failure alone (60_exceptions R201). -/
theorem eq_transport_of_errCode {e : Err} (h : errCode e = 1) : e = .transport := by
  cases e with
  | transport => rfl
  | invalidParam | unsupportedMode | notReady => exact absurd h (by decide)

/-- A transport failure in `READY` leaves the trace as the cut body left it (60_exceptions R202). -/
theorem enter_transport_trace {s : State} (h : s.phase = .ready) : (s.enter .transport).trace = s.trace := by
  rw [enter_transport_ready h]
  rfl

/-- Settles O42: the body that failed and the one without the failure put the same words on the link, the first a proper part
of their events. -/
theorem failedRequestLeavesProperPrefix : Obligations.FailedRequestLeavesProperPrefix := by
  unfold Obligations.FailedRequestLeavesProperPrefix
  rintro i s t u hi ⟨hready, ho⟩ ht hrsp hu
  rw [exec_of_isSending hi, ready_runs hready, inOrder_single] at ht
  rw [exec_of_isSending hi, ready_runs (s := { s with answers := [] }) hready, inOrder_single] at hu
  have hn : NoFailure { s with answers := [] } := fun a ha => by cases ha
  rcases sendingBody_outcomes hi s.params s.colorMode with ⟨e, he, hr⟩ | ⟨ws, m, hs⟩ | hstop
  · rw [hr s ⟨rfl, rfl⟩, finish_raised] at ht
    cases ht
    rw [enter_rsp] at hrsp
    exact absurd (eq_transport_of_errCode hrsp) he
  · obtain ⟨v, hv, hd⟩ := ((hs { s with answers := [] } ⟨rfl, rfl⟩).1 ho).completes hn
    rw [hv, finish_ok] at hu
    cases hu
    have hfail := (hs s ⟨rfl, rfl⟩).1 ho
    rcases finish_cases ht with ⟨w, hw, rfl⟩ | ⟨e, w, hw, rfl⟩
    · exact absurd hrsp (show codeOK ≠ 1 by decide)
    · rw [hw] at hfail
      obtain ⟨rfl, hcut⟩ := hfail
      obtain ⟨k, hk, htrace⟩ := hcut.trace
      have hfull : v.trace = s.trace ++ wordsEvents s.backend ws := hd.trace
      rw [enter_transport_trace (hcut.keeps.phase.trans hready), State.respond_trace, htrace, hfull]
      refine ⟨(List.prefix_append_right_inj _).2 (List.take_prefix _ _), fun heq => ?_⟩
      have hlen := congrArg List.length (List.append_cancel_left heq)
      rw [List.length_take] at hlen
      omega
  · obtain ⟨f, hf⟩ := hstop { s with answers := [] } ⟨rfl, rfl⟩ hn
    rw [hf, finish_stopped] at hu
    cases hu

/-! ### The word-level view of a trace (00_scope R11, 20_memory R56) -/

@[simp] theorem wordView_append (a b : List Event) : wordView (a ++ b) = wordView a ++ wordView b :=
  List.filter_append a b

/-- Pin writes are not in the word-level view. -/
theorem wordView_bitsPins (v : LinkWord) (n : Nat) : wordView (bitsPins v n) = [] := by
  induction n with
  | zero => rfl
  | succ n ih =>
    rw [bitsPins, wordView_append, ih]
    rfl

/-- On either backend a word leaves its `W9` in the word-level view. -/
@[simp] theorem wordView_wordEvents (k : Backend) (w : LinkWord) : wordView (wordEvents k w) = [.w9 w] := by
  cases k with
  | hwSerial => rfl
  | bitBang =>
    have hpins : wordView (wordPins w) = [] := by
      show wordView (bitsPins w 9 ++ [Event.pin .cs true]) = []
      rw [wordView_append, wordView_bitsPins]
      rfl
    rw [wordEvents, wordView_append, hpins]
    rfl

@[simp] theorem wordView_wordsEvents (k : Backend) (ws : List LinkWord) :
    wordView (wordsEvents k ws) = ws.map Event.w9 := by
  induction ws with
  | nil => rfl
  | cons w ws ih => rw [wordsEvents_cons, wordView_append, wordView_wordEvents, ih]; rfl

/-- Power-reset shows its two holds (43_sequencer R133, R134). -/
@[simp] theorem wordView_powerResetEvents (k : Backend) : wordView (powerResetEvents k) = [.wait 200, .wait 200] := by
  cases k <;> rfl

/-- A transport build shows nothing (43_sequencer R132). -/
@[simp] theorem wordView_buildEvents (k : Backend) : wordView (buildEvents k) = [] := by
  cases k <;> rfl

/-- What INIT's steps read to choose their words is the same. -/
structure SameStepInputs (a s : State) : Prop where
  params : s.params = a.params
  colorMode : s.colorMode = a.colorMode
  orient : s.orient = a.orient
  bg : s.bg = a.bg

/-- What each step of INIT shows does not depend on the backend. -/
theorem SameStepInputs.stepEvents {a s : State} (h : SameStepInputs a s) (n : Fin 8) :
    wordView (stepEvents s n) = wordView (Machine.stepEvents a n) := by
  match n with
  | 0 => rfl
  | 1 => simp [Machine.stepEvents]
  | 2 => simp [Machine.stepEvents]
  | 3 => simp [Machine.stepEvents, h.colorMode]
  | 4 => simp [Machine.stepEvents, h.params]
  | 5 => simp [Machine.stepEvents]
  | 6 => simp [Machine.stepEvents, h.params, h.orient]
  | 7 => simp only [Machine.stepEvents, wordView_wordsEvents, h.params, h.colorMode, h.bg]

/-- What the seven steps of INIT show, started in a state like `a`. -/
def stepsView (a : State) : List Event := wordView (([1, 2, 3, 4, 5, 6, 7] : List (Fin 8)).flatMap (stepEvents a))

/-- The steps together. -/
theorem SameStepInputs.stepsView {a s : State} (h : SameStepInputs a s) : stepsView s = Machine.stepsView a := by
  simp only [Machine.stepsView, List.flatMap_cons, List.flatMap_nil, wordView_append, h.stepEvents]

/-! ### Both backends send the same words (20_memory R56, 43_sequencer R146) -/

/-- What decides the words of a request: neither the backend nor the lines nor the trace is among it. -/
structure SameWordInputs (a s : State) : Prop where
  phase : s.phase = a.phase
  params : s.params = a.params
  colorMode : s.colorMode = a.colorMode
  strapMode : s.straps.colorMode = a.straps.colorMode
  strapBg : s.straps.bg = a.straps.bg

/-- `t` is `s` with `es` appended in the word-level view. -/
def Shows (es : List Event) (s t : State) : Prop := wordView t.trace = wordView s.trace ++ es

theorem Shows.of_trace {s t : State} {es : List Event} (h : t.trace = s.trace ++ es) : Shows (wordView es) s t := by
  rw [Shows, h, wordView_append]

/-- A trace left as it is. -/
theorem Shows.nothing {s t : State} (h : t.trace = s.trace) : Shows [] s t := by
  rw [Shows, h, List.append_nil]

/-- A rejection shows nothing (60_exceptions R203 to R205). -/
theorem shows_rejected {e : Err} (he : e ≠ .transport) (s : State) : Shows [] s (s.enter e) := by
  have h : RejectedWith e s (s.enter e) := enter_rejects he s
  rw [RejectedWith] at h
  rw [h]
  exact .nothing rfl

/-- An outcome that, with no failure ahead, shows the same from all states that agree on what decides the words. -/
def ShowsAlike (p : State → Host.Outcome State Fault Refusal) : Prop :=
  ∀ a : State, ∃ es, ∀ s t, SameWordInputs a s → NoFailure s → p s = .next t → Shows es s t

/-- A sending request shows its words, or nothing. -/
theorem showsAlike_sending {i : Instr} (hi : isSending i = true) : ShowsAlike (exec i) := by
  intro a
  by_cases hready : a.phase = .ready
  · have run : ∀ s, SameWordInputs a s → exec i s = finish (sendingBody i s) := fun s ha => by
      rw [exec_of_isSending hi, ready_runs (ha.phase.trans hready), inOrder_single]
    rcases sendingBody_outcomes hi a.params a.colorMode with ⟨e, he, hr⟩ | ⟨ws, m, hs⟩ | hstop
    · refine ⟨[], fun s t ha _ ht => ?_⟩
      rw [run s ha, hr s ⟨ha.params, ha.colorMode⟩, finish_raised] at ht
      cases ht
      exact shows_rejected he s
    · refine ⟨ws.map Event.w9, fun s t ha hn ht => ?_⟩
      obtain ⟨hopen, hclosed⟩ := hs s ⟨ha.params, ha.colorMode⟩
      rw [run s ha] at ht
      cases ho : s.tpOpen with
      | false =>
        rw [hclosed ho, finish_stopped] at ht
        cases ht
      | true =>
        obtain ⟨u, hu, hd⟩ := (hopen ho).completes hn
        rw [hu, finish_ok] at ht
        cases ht
        rw [← wordView_wordsEvents s.backend ws]
        exact .of_trace ((State.respond_trace u codeOK).trans hd.trace)
    · refine ⟨[], fun s t ha hn ht => ?_⟩
      obtain ⟨f, hf⟩ := hstop s ⟨ha.params, ha.colorMode⟩ hn
      rw [run s ha, hf, finish_stopped] at ht
      cases ht
  · refine ⟨[], fun s t ha _ ht => ?_⟩
    rw [exec_of_isSending hi, notReady_raises (by rwa [ha.phase]), finish_raised] at ht
    cases ht
    exact shows_rejected (by simp) s

/-- CLOSE's own event is not in the word-level view (43_sequencer R144). -/
theorem shows_release (s : State) : Shows [] s s.release := by
  unfold State.release
  split
  · exact .of_trace (es := [.closed]) (State.emit_trace _ _)
  · exact .nothing rfl

theorem showsAlike_close : ShowsAlike (exec .close) := by
  refine fun a => ⟨[], fun s t _ _ ht => ?_⟩
  rw [exec_close_eq, closeBody] at ht
  rcases inOrder_require_cases (fun t => t.phase == .ready || t.phase == .failed) .notReady [assign State.release] s with
    ⟨_, hr⟩ | ⟨_, hr⟩
  · rw [hr] at ht
    cases ht
    exact shows_release s
  · rw [hr] at ht
    cases ht
    exact shows_rejected (by simp) s

/-- With no failure ahead INIT's steps all run. -/
theorem StepsRun.completes {ns : List (Fin 8)} {s : State} {r : Run} (h : StepsRun ns s r) (hn : NoFailure s) :
    ∃ t, r = .ok t ∧ t.trace = s.trace ++ ns.flatMap (stepEvents s) := by
  cases r with
  | ok t =>
    obtain ⟨_, htrace, _⟩ := h
    exact ⟨t, rfl, htrace⟩
  | raised e t =>
    obtain ⟨_, _, hfalse, _⟩ := h
    exact absurd (hn false hfalse) (by simp)
  | stopped f => exact h.elim

/-- INIT past its build shows what its seven steps show. -/
theorem shows_initRun {a s t : State} (ht : finish (initRun s) = .next t) (ha : SameStepInputs a s) (hn : NoFailure s)
    (hmode : s.colorMode = mode16 ∨ s.colorMode = mode18) (hupright : s.orient = .deg0) : Shows (stepsView a) s t := by
  have hrun := steps_run [1, 2, 3, 4, 5, 6, 7] (s := { s with tpOpen := true, phase := .init }) rfl hmode hupright
  rw [← initSteps_eq] at hrun
  obtain ⟨u, hu, htrace⟩ := hrun.completes hn
  rw [initRun_eq, hu] at ht
  cases ht
  have hbegun : SameStepInputs a { s with tpOpen := true, phase := .init } := ⟨ha.params, ha.colorMode, ha.orient, ha.bg⟩
  rw [← hbegun.stepsView]
  exact .of_trace htrace

/-- INIT past its checks shows what its seven steps show: the build shows nothing. -/
theorem shows_initBody {a s t : State} (ha : SameWordInputs a s) (hn : NoFailure s) (hchecks : initChecks s = .ok s)
    (hmode : s.straps.colorMode = mode16 ∨ s.straps.colorMode = mode18) (ht : finish (initBody s) = .next t) :
    Shows (stepsView a.latchStraps) s t := by
  rw [initBody, hchecks, Run.ok_andThen] at ht
  rcases buildTransport_cases s.latchStraps with ⟨as, has, hbuild⟩ | ⟨as, _, hfalse, _⟩
  · rw [State.emitAll_eq] at hbuild
    rw [hbuild, Run.ok_andThen] at ht
    have hrun := shows_initRun (a := a.latchStraps) ht ⟨ha.params, ha.strapMode, rfl, ha.strapBg⟩
      (fun b hb => hn b (has.subset hb)) hmode rfl
    rw [Shows] at hrun ⊢
    rw [hrun]
    simp [State.trace]
  · exact absurd (hn false hfalse) (by simp)

/-- INIT's checks pass in `OFF` with a mode that has pixels (43_sequencer R130). -/
theorem initChecks_pass {s : State} (hoff : s.phase = .off)
    (hmode : s.straps.colorMode = mode16 ∨ s.straps.colorMode = mode18) : initChecks s = .ok s := by
  rcases hmode with hm | hm <;>
    simp [initChecks, require, hoff, hm, colorModeKnown, mode12, mode16, mode18]

/-- INIT shows what its steps show if its checks pass, and nothing otherwise. -/
theorem showsAlike_init : ShowsAlike (exec .init) := by
  intro a
  by_cases hpass : a.phase = .off ∧ (a.straps.colorMode = mode16 ∨ a.straps.colorMode = mode18)
  · obtain ⟨hoff, hmode⟩ := hpass
    refine ⟨stepsView a.latchStraps, fun s t ha hn ht => ?_⟩
    rw [← ha.phase] at hoff
    rw [← ha.strapMode] at hmode
    rw [exec_init_eq] at ht
    exact shows_initBody ha hn (initChecks_pass hoff hmode) hmode ht
  · refine ⟨[], fun s t ha _ ht => ?_⟩
    rw [exec_init_eq, initBody] at ht
    rcases initChecks_cases s with ⟨er, her, hr⟩ | ⟨hoff, hmode, _⟩
    · rw [hr] at ht
      cases ht
      exact shows_rejected her s
    · rw [ha.phase] at hoff
      rw [ha.strapMode] at hmode
      exact absurd ⟨hoff, hmode⟩ hpass

/-- Every instruction shows the same on both backends. -/
theorem showsAlike_exec (i : Instr) : ShowsAlike (exec i) := by
  cases i with
  | init => exact showsAlike_init
  | close => exact showsAlike_close
  | pack565 | unpack565 | frameCmd | frameData =>
    refine fun a => ⟨[], fun s t _ _ ht => ?_⟩
    cases ht
    exact .nothing rfl
  | setOrientation | setWindow | clear | sendPixel | sendPixelP16 | sendCmd | sendData => exact showsAlike_sending rfl
  | swreset | slpout | dispon | caset | raset | ramwr | madctr | colmod | nvctr | data => exact showsAlike_sending rfl

/-- Settles O53: what decides the words of a request is the same in both states. -/
theorem backendsSendTheSameWords : Obligations.BackendsSendTheSameWords := by
  unfold Obligations.BackendsSendTheSameWords
  intro i s s' t t' hn hn' hs ht ht'
  obtain ⟨es, hes⟩ := showsAlike_exec i s
  have same : SameWordInputs s s' :=
    ⟨by rw [hs], by rw [hs], by rw [hs], by rw [hs], by rw [hs]⟩
  exact ⟨es, hes s t ⟨rfl, rfl, rfl, rfl, rfl⟩ hn ht, hes s' t' same hn' ht'⟩

end Sys2Proof.Machine
end

section
/-! PROOFS. The decoder and the encoder (30_encoding): a request is the bits of its `op` and of its operand fields, a link
word is its framing, and a reserved `op` is rejected. -/

namespace Sys2Proof.Machine

/-! ### Requests: the bits of the `op` and of the operand fields (30_encoding R90 to R92) -/

/-- Two packed requests are equal field by field (30_encoding R90). -/
theorem packReq_inj {op op' : BitVec 4} {a0 a1 a2 a3 b0 b1 b2 b3 : Half} :
    packReq op a0 a1 a2 a3 = packReq op' b0 b1 b2 b3 ↔ op = op' ∧ a0 = b0 ∧ a1 = b1 ∧ a2 = b2 ∧ a3 = b3 := by
  constructor
  · intro h
    have hop := congrArg ReqWord.op h
    have h0 := congrArg ReqWord.a0 h
    have h1 := congrArg ReqWord.a1 h
    have h2 := congrArg ReqWord.a2 h
    have h3 := congrArg ReqWord.a3 h
    simp only [packReq_op, packReq_a0, packReq_a1, packReq_a2, packReq_a3] at hop h0 h1 h2 h3
    exact ⟨hop, h0, h1, h2, h3⟩
  · rintro ⟨rfl, rfl, rfl, rfl, rfl⟩
    rfl

/-- An 8-bit operand is determined by its field (30_encoding R92). -/
theorem byteField_inj {b c : Byte} : byteField b = byteField c ↔ b = c :=
  ⟨fun h => by simpa only [lowByte_byteField] using congrArg lowByte h, congrArg byteField⟩

/-- Masking a field to its low byte keeps the 8-bit operand and clears the ignored byte (30_encoding R92). -/
theorem and_lowByteMask (f : Half) : f &&& 0x00FF#16 = byteField (lowByte f) := by
  apply BitVec.eq_of_toNat_eq
  have hf : (byteField (lowByte f)).toNat = f.toNat % 256 := by
    refine (toNat_append_add (0#8) (lowByte f)).trans ?_
    simp [lowByte]
  rw [hf, BitVec.toNat_and]
  exact Nat.and_two_pow_sub_one_eq_mod f.toNat 8

/-- A mask written by its fields masks a request word field by field. -/
theorem and_packReq (w : ReqWord) (m : BitVec 4) (m0 m1 m2 m3 : Half) :
    w &&& packReq m m0 m1 m2 m3 =
      packReq (w.op &&& m) (w.a0 &&& m0) (w.a1 &&& m1) (w.a2 &&& m2) (w.a3 &&& m3) := by
  have append : (w.op ++ w.a0 ++ w.a1 ++ w.a2 ++ w.a3) &&& (m ++ m0 ++ m1 ++ m2 ++ m3) =
      (w.op &&& m) ++ (w.a0 &&& m0) ++ (w.a1 &&& m1) ++ (w.a2 &&& m2) ++ (w.a3 &&& m3) := by
    simp only [BitVec.and_append]
  calc w &&& packReq m m0 m1 m2 m3
      = packReq w.op w.a0 w.a1 w.a2 w.a3 &&& packReq m m0 m1 m2 m3 := by rw [packReq_of_fields]
    _ = _ := append

/-- The word `w` with only the fields of the request `i` left in it: its `op`, its 16-bit operands, the low byte of the
field of each 8-bit operand (30_encoding R92). `and_usedBits` ties it to the mask `usedBits`. -/
def onlyFields (i : Instr) (w : ReqWord) : ReqWord :=
  match i with
  | .init | .close => packReq w.op 0 0 0 0
  | .setOrientation _ | .sendPixelP16 _ | .unpack565 _ => packReq w.op w.a0 0 0 0
  | .setWindow _ _ _ _ => packReq w.op w.a0 w.a1 w.a2 w.a3
  | .clear _ _ _ | .sendPixel _ _ _ | .pack565 _ _ _ =>
    packReq w.op (byteField (lowByte w.a0)) (byteField (lowByte w.a1)) (byteField (lowByte w.a2)) 0
  | .sendCmd _ | .sendData _ | .frameCmd _ | .frameData _ => packReq w.op (byteField (lowByte w.a0)) 0 0 0
  | .swreset | .slpout | .dispon | .caset | .raset | .ramwr | .madctr | .colmod | .nvctr | .data _ => 0

/-- The bits a request uses are its `op` and operand fields. -/
theorem and_usedBits (i : Instr) (w : ReqWord) : w &&& usedBits i = onlyFields i w := by
  have op : w.op &&& 0xF#4 = w.op := BitVec.and_allOnes
  have half (f : Half) : f &&& 0xFFFF#16 = f := BitVec.and_allOnes
  have zero (f : Half) : f &&& 0 = 0 := BitVec.and_zero
  cases i with
  | init | close =>
    refine (and_packReq w 0xF#4 0 0 0 0).trans ?_
    simp only [onlyFields, op, zero]
  | setOrientation | sendPixelP16 | unpack565 =>
    refine (and_packReq w 0xF#4 0xFFFF#16 0 0 0).trans ?_
    simp only [onlyFields, op, half, zero]
  | setWindow =>
    refine (and_packReq w 0xF#4 0xFFFF#16 0xFFFF#16 0xFFFF#16 0xFFFF#16).trans ?_
    simp only [onlyFields, op, half]
  | clear | sendPixel | pack565 =>
    refine (and_packReq w 0xF#4 0x00FF#16 0x00FF#16 0x00FF#16 0).trans ?_
    simp only [onlyFields, op, and_lowByteMask, zero]
  | sendCmd | sendData | frameCmd | frameData =>
    refine (and_packReq w 0xF#4 0x00FF#16 0 0 0).trans ?_
    simp only [onlyFields, op, and_lowByteMask, zero]
  | swreset | slpout | dispon | caset | raset | ramwr | madctr | colmod | nvctr | data => exact BitVec.and_zero

/-- A request that decodes is encoded by the fields it was decoded from. -/
theorem encode_of_decodeReq {w : ReqWord} {i : Instr} (h : decodeReq w = .ok i) : encode i = .req (onlyFields i w) := by
  revert h
  fun_cases decodeReq w
  case case14 => exact fun hreserved => nomatch hreserved
  all_goals
    rename_i hop
    rintro ⟨⟩
    simp only [encode, onlyFields, show w.op = _ from hop]

/-- A word with the fields of a request's encoding decodes to that request. -/
theorem decodeReq_of_encode {w : ReqWord} {i : Instr} (h : encode i = .req (onlyFields i w)) : decodeReq w = .ok i := by
  cases i with
  | init | close =>
    obtain ⟨hop, -⟩ := packReq_inj.1 (Frame.req.inj h)
    simp [decodeReq, ← hop]
  | setOrientation | sendPixelP16 | unpack565 =>
    obtain ⟨hop, rfl, -⟩ := packReq_inj.1 (Frame.req.inj h)
    simp [decodeReq, ← hop]
  | setWindow =>
    obtain ⟨hop, rfl, rfl, rfl, rfl⟩ := packReq_inj.1 (Frame.req.inj h)
    simp [decodeReq, ← hop]
  | clear | sendPixel | pack565 =>
    obtain ⟨hop, hr, hg, hb, -⟩ := packReq_inj.1 (Frame.req.inj h)
    simp [decodeReq, ← hop, byteField_inj.1 hr, byteField_inj.1 hg, byteField_inj.1 hb]
  | sendCmd | sendData | frameCmd | frameData =>
    obtain ⟨hop, hb, -⟩ := packReq_inj.1 (Frame.req.inj h)
    simp [decodeReq, ← hop, byteField_inj.1 hb]
  | swreset | slpout | dispon | caset | raset | ramwr | madctr | colmod | nvctr | data => cases h

/-- A request word decodes to `i` just when its bits that `i` uses are `i`'s encoding (30_encoding R91, R92). -/
theorem decodeReq_eq_ok_iff {w : ReqWord} {i : Instr} : decodeReq w = .ok i ↔ encode i = .req (w &&& usedBits i) := by
  rw [and_usedBits]
  exact ⟨encode_of_decodeReq, decodeReq_of_encode⟩

/-- An encoded request has no bit set that it does not use. -/
theorem and_usedBits_of_encode {w : ReqWord} {i : Instr} (h : encode i = .req w) : w &&& usedBits i = w := by
  rw [and_usedBits]
  cases i with
  | swreset | slpout | dispon | caset | raset | ramwr | madctr | colmod | nvctr | data => cases h
  | _ =>
    cases h
    simp only [onlyFields, packReq_op, packReq_a0, packReq_a1, packReq_a2, packReq_a3, lowByte_byteField]

/-- Settles O3: both halves are `decodeReq_eq_ok_iff`, which speaks of the used bits alone. -/
theorem requestOperandsAreTheirFields : Obligations.RequestOperandsAreTheirFields := by
  unfold Obligations.RequestOperandsAreTheirFields
  intro w i h
  have henc : encode i = .req (w &&& usedBits i) := decodeReq_eq_ok_iff.1 h
  refine ⟨henc, fun w' hw' => decodeReq_eq_ok_iff.2 ?_⟩
  rw [hw', henc]

/-! ### Link words: the two framings (30_encoding R80 to R83) -/

/-- A data word decodes to its byte (30_encoding R82). -/
@[simp] theorem decodeLink_dataWord (d : Byte) : decodeLink (dataWord d) = .ok (.data d) := by
  simp only [decodeLink, dataWord_dc, dataWord_payload, if_true]

/-- A command word that decodes carries the code of its instruction (30_encoding R83). -/
theorem encode_of_decodeLink_commandWord {code : Byte} {i : Instr} (h : decodeLink (commandWord code) = .ok i) :
    encode i = .link (commandWord code) := by
  simp only [decodeLink, commandWord_dc, commandWord_payload, Bool.false_eq_true, if_false] at h
  split_ifs at h
  all_goals
    subst code
    cases h
    rfl

/-- A link word decodes to `i` just when it is `i`'s encoding (30_encoding R80 to R83). -/
theorem decodeLink_eq_ok_iff {w : LinkWord} {i : Instr} : decodeLink w = .ok i ↔ encode i = .link w := by
  constructor
  · intro h
    rcases linkWord_cases w with ⟨-, hw⟩ | ⟨-, hw⟩
    · rw [hw] at h ⊢
      exact encode_of_decodeLink_commandWord h
    · rw [hw, decodeLink_dataWord] at h
      cases h
      rw [encode, ← hw]
  · intro h
    cases i with
    | data d =>
      cases h
      exact decodeLink_dataWord d
    | swreset | slpout | dispon | caset | raset | ramwr | madctr | colmod | nvctr =>
      cases h
      rfl
    | _ => cases h

/-- Settles O2: `decodeLink_eq_ok_iff`, from left to right. -/
theorem linkWordHasOneMeaning : Obligations.LinkWordHasOneMeaning := by
  unfold Obligations.LinkWordHasOneMeaning
  exact fun w i h => decodeLink_eq_ok_iff.1 h

/-- Settles O4: each clause is the number, the framing bit or the payload of a framed word. -/
theorem framingFixesBitEight : Obligations.FramingFixesBitEight := by
  unfold Obligations.FramingFixesBitEight
  refine ⟨fun b => ⟨commandWord_toNat b, commandWord_dc b, commandWord_payload b⟩,
    fun b => ⟨dataWord_toNat b, dataWord_dc b, dataWord_payload b⟩, fun w => ?_⟩
  rcases linkWord_cases w with ⟨-, hw⟩ | ⟨-, hw⟩
  · exact .inl hw
  · exact .inr hw

/-! ### The round trip -/

/-- The encoding of an instruction, as a request or as a link word, decodes to it. -/
theorem decode_of_encode {i : Instr} {f : Frame} (h : encode i = f) : decode f = .ok i := by
  cases f with
  | req w => exact decodeReq_eq_ok_iff.2 (by rw [and_usedBits_of_encode h, h])
  | link w => exact decodeLink_eq_ok_iff.2 h

/-- Settles O1: a request's encoding has no bit the request does not use, and a link word decodes only from its encoding. -/
theorem decodeEncodeRoundTrip : Obligations.DecodeEncodeRoundTrip := by
  unfold Obligations.DecodeEncodeRoundTrip
  exact fun i _ => decode_of_encode rfl

/-- Settles O5: the used bits of each request word, and each link word, are the encoding of the instruction they stand for. -/
theorem writtenOutWordsDecode : Obligations.WrittenOutWordsDecode := by
  unfold Obligations.WrittenOutWordsDecode
  have req {w : ReqWord} {i : Instr} (h : encode i = .req (w &&& usedBits i)) : decode (.req w) = .ok i :=
    decodeReq_eq_ok_iff.2 h
  have link {w : LinkWord} {i : Instr} (h : encode i = .link w) : decode (.link w) = .ok i := decodeLink_eq_ok_iff.2 h
  exact ⟨req rfl, req rfl, req rfl, req rfl, req rfl, req rfl, req rfl, link rfl, link rfl, link rfl⟩

/-! ### Reserved operation codes (30_encoding R94) -/

/-- A reserved `op` decodes to its rejection. -/
theorem decodeReq_reservedOp {w : ReqWord} (h : w.op = 0x0#4 ∨ w.op = 0xE#4 ∨ w.op = 0xF#4) :
    decodeReq w = .reservedOp w.op := by
  rcases h with h | h | h <;> simp [decodeReq, h]

/-- Settles O7: the reserved request is decoded to its rejection, whose entry changes `ERR` and the response only. -/
theorem reservedOpIsRejected : Obligations.ReservedOpIsRejected := by
  unfold Obligations.ReservedOpIsRejected
  intro s w rest hhost hop
  have hdec : decode (.req w) = .reservedOp w.op := decodeReq_reservedOp hop
  refine ⟨(s.withHost rest).enter .invalidParam, ?_, enter_rejects (by decide) (s.withHost rest)⟩
  calc step s = serveFrame (.req w) (s.withHost rest) := step_of_host_present hhost
    _ = reservedRequest (s.withHost rest) := by simp only [serveFrame, hdec]
    _ = .next ((s.withHost rest).enter .invalidParam) := finish_raised _ _

end Sys2Proof.Machine
end

section
/-! PROOFS. The colour packer (41_color_packer): what its two requests answer, the fields of a packed value and of its
channels, and the round trip between them. -/

namespace Sys2Proof.Machine

/-! ### What the two requests answer, in every state (41_color_packer R110, R112) -/

theorem exec_pack565_eq (r g b : Byte) (s : State) :
    exec (.pack565 r g b) s = .next { s with rsp := 0, res := resOfPacked (pack565 ⟨r, g, b⟩) } :=
  answerPure_next _ s

theorem exec_unpack565_eq (p : Half) (s : State) :
    exec (.unpack565 p) s = .next { s with rsp := 0, res := resOfColor (unpack565 p) } :=
  answerPure_next _ s

/-- `op` 0xA takes its channels from the low bytes of `a0`, `a1`, `a2` (30_encoding R91, R92). -/
theorem decodeReq_packReq_pack565 (a0 a1 a2 a3 : Half) :
    decodeReq (packReq 0xA#4 a0 a1 a2 a3) = .ok (.pack565 (lowByte a0) (lowByte a1) (lowByte a2)) := by
  simp [decodeReq]

/-- `op` 0xB takes its packed value from `a0` (30_encoding R91, R92). -/
theorem decodeReq_packReq_unpack565 (a0 a1 a2 a3 : Half) :
    decodeReq (packReq 0xB#4 a0 a1 a2 a3) = .ok (.unpack565 a0) := by
  simp [decodeReq]

/-! ### Where `RES` holds a result (30_encoding R93) -/

theorem resOfPacked_eq_append (p : Half) : resOfPacked p = 0#8 ++ p :=
  BitVec.setWidth_eq_append (by decide)

theorem extract_resOfPacked (p : Half) : (resOfPacked p).extractLsb' 0 16 = p :=
  (BitVec.extractLsb'_setWidth_of_le (by decide)).trans BitVec.extractLsb'_eq_self

theorem extract_resOfColor_r (c : Color) : (resOfColor c).extractLsb' 16 8 = c.r :=
  (BitVec.extractLsb'_append_eq_of_le (by decide)).trans BitVec.extractLsb'_append_eq_left

theorem extract_resOfColor_g (c : Color) : (resOfColor c).extractLsb' 8 8 = c.g :=
  (BitVec.extractLsb'_append_eq_of_le (by decide)).trans BitVec.extractLsb'_append_eq_right

theorem extract_resOfColor_b (c : Color) : (resOfColor c).extractLsb' 0 8 = c.b :=
  BitVec.extractLsb'_append_eq_right

/-! ### The results as natural numbers -/

/-- The formula of 41_color_packer R110 loses no bit: each masked channel fits its place in 16 bits. -/
theorem pack565_toNat (c : Color) : (pack565 c).toNat =
    ((c.r.toNat &&& 0xF8) <<< 8) ||| ((c.g.toNat &&& 0xFC) <<< 3) ||| (c.b.toNat >>> 3) := by
  have widened (x : Byte) : x.toNat % 65536 = x.toNat := Nat.mod_eq_of_lt (by omega)
  have placed {m k : Nat} (x : Nat) (h : m * 2 ^ k < 65536) : (x &&& m) <<< k % 65536 = (x &&& m) <<< k := by
    rw [Nat.shiftLeft_eq]
    exact Nat.mod_eq_of_lt ((Nat.mul_le_mul_right _ Nat.and_le_right).trans_lt h)
  simp [pack565, widened, placed]

/-- The channels of 41_color_packer R112, each field times the weight of its fill and of its place on `RES`. -/
theorem resOfColor_unpack565_toNat (p : Half) : (resOfColor (unpack565 p)).toNat =
    (p.toNat / 2048 * 8) * 65536 + (p.toNat / 32 % 64 * 4) * 256 + (p.toNat % 32 * 8) := by
  have channels : (resOfColor (unpack565 p)).toNat =
      ((unpack565 p).r.toNat * 2 ^ 8 + (unpack565 p).g.toNat) * 2 ^ 8 + (unpack565 p).b.toNat :=
    (toNat_append_add _ _).trans (by rw [toNat_append_add])
  have r : (unpack565 p).r.toNat = (p.extractLsb' 11 5).toNat * 2 ^ 3 := toNat_append_add _ 0#3
  have g : (unpack565 p).g.toNat = (p.extractLsb' 5 6).toNat * 2 ^ 2 := toNat_append_add _ 0#2
  have b : (unpack565 p).b.toNat = (p.extractLsb' 0 5).toNat * 2 ^ 3 := toNat_append_add _ 0#3
  have bound := p.isLt
  rw [channels, r, g, b]
  simp only [BitVec.extractLsb'_toNat, Nat.shiftRight_eq_div_pow]
  omega

/-! ### The round trip (41_color_packer R113) -/

/-- A left-aligned field with zero fill is its word with the low bits masked off. -/
theorem extract_append_zero (w n : Nat) (x : BitVec (w + n)) :
    x.extractLsb' n w ++ 0#n = x &&& (BitVec.allOnes w ++ 0#n) := by
  calc x.extractLsb' n w ++ 0#n
      = (x.extractLsb' n w ++ x.extractLsb' 0 n) &&& (BitVec.allOnes w ++ 0#n) := by
        rw [BitVec.and_append, BitVec.and_allOnes, BitVec.and_zero]
    _ = x &&& (BitVec.allOnes w ++ 0#n) := by rw [BitVec.extractLsb'_append_extractLsb']

/-- Packing drops the fill of the channels and joins their fields again. -/
theorem pack565_unpack565 (p : Half) : pack565 (unpack565 p) = p := by
  have r : (unpack565 p).r.extractLsb' 3 5 = p.extractLsb' 11 5 := BitVec.extractLsb'_append_eq_left
  have g : (unpack565 p).g.extractLsb' 2 6 = p.extractLsb' 5 6 := BitVec.extractLsb'_append_eq_left
  have b : (unpack565 p).b.extractLsb' 3 5 = p.extractLsb' 0 5 := BitVec.extractLsb'_append_eq_left
  have upper : p.extractLsb' 11 5 ++ p.extractLsb' 5 6 = p.extractLsb' 5 11 :=
    BitVec.extractLsb'_append_extractLsb'_eq_extractLsb' rfl
  have whole : p.extractLsb' 5 11 ++ p.extractLsb' 0 5 = p := BitVec.extractLsb'_append_extractLsb'
  rw [pack565_fields, r, g, b, upper, whole]

/-- Unpacking finds the fields of the packed channels; the masked bits are lost. -/
theorem unpack565_pack565 (c : Color) : unpack565 (pack565 c) = ⟨c.r &&& 0xF8, c.g &&& 0xFC, c.b &&& 0xF8⟩ := by
  have fields := pack565_fields c
  have r : (pack565 c).extractLsb' 11 5 = c.r.extractLsb' 3 5 := by
    rw [fields]
    exact (BitVec.extractLsb'_append_eq_of_le (by decide)).trans BitVec.extractLsb'_append_eq_left
  have g : (pack565 c).extractLsb' 5 6 = c.g.extractLsb' 2 6 := by
    rw [fields]
    exact (BitVec.extractLsb'_append_eq_of_le (by decide)).trans BitVec.extractLsb'_append_eq_right
  have b : (pack565 c).extractLsb' 0 5 = c.b.extractLsb' 3 5 := by
    rw [fields]
    exact BitVec.extractLsb'_append_eq_right
  rw [unpack565, r, g, b]
  exact congr (congrArg₂ Color.mk (extract_append_zero 5 3 c.r) (extract_append_zero 6 2 c.g))
    (extract_append_zero 5 3 c.b)

/-- Only the bits that the masks keep reach the packed value. -/
theorem pack565_masked (c : Color) : pack565 ⟨c.r &&& 0xF8, c.g &&& 0xFC, c.b &&& 0xF8⟩ = pack565 c := by
  rw [← unpack565_pack565, pack565_unpack565]

/-! ### The statements -/

/-- Settles O10: the field view is `pack565_fields`, the formula `pack565_toNat`, and the colour that packs to `p` is
`unpack565 p`. -/
theorem pack565Result : Obligations.Pack565Result := by
  unfold Obligations.Pack565Result
  refine ⟨fun s r g b => ?_, fun r g b => ?_, fun p => ?_, fun a0 a1 a2 a3 => ?_⟩
  · rw [exec_pack565_eq, resOfPacked_eq_append, pack565_fields]
  · exact (congrArg BitVec.toNat (pack565_fields ⟨r, g, b⟩)).symm.trans (pack565_toNat ⟨r, g, b⟩)
  · refine ⟨(unpack565 p).r, (unpack565 p).g, (unpack565 p).b, fun s => ?_⟩
    rw [exec_pack565_eq, pack565_unpack565, resOfPacked_eq_append]
  · exact decodeReq_packReq_pack565 a0 a1 a2 a3

/-- Settles O11: `RES` is the number of `resOfColor_unpack565_toNat`. -/
theorem unpack565Result : Obligations.Unpack565Result := by
  unfold Obligations.Unpack565Result
  refine ⟨fun s p => ?_, fun a0 a1 a2 a3 => decodeReq_packReq_unpack565 a0 a1 a2 a3⟩
  rw [exec_unpack565_eq, ← resOfColor_unpack565_toNat, BitVec.ofNat_toNat, BitVec.setWidth_eq]

/-- Settles O12: the laws are `pack565_unpack565`, `unpack565_pack565` and `pack565_masked`, read through `RES`. -/
theorem packUnpackLaws : Obligations.PackUnpackLaws := by
  unfold Obligations.PackUnpackLaws
  refine ⟨fun r g b => ⟨_, exec_pack565_eq r g b⟩, fun p s t ht => ?_, fun r g b s t ht => ?_, fun r g b s => ?_⟩
  · rw [exec_unpack565_eq] at ht
    cases ht
    rw [exec_pack565_eq, extract_resOfColor_r, extract_resOfColor_g, extract_resOfColor_b, pack565_unpack565,
      resOfPacked]
  · rw [exec_pack565_eq] at ht
    cases ht
    rw [exec_unpack565_eq, extract_resOfPacked, unpack565_pack565, resOfColor]
  · rw [exec_pack565_eq, exec_pack565_eq, pack565_masked ⟨r, g, b⟩]

end Sys2Proof.Machine
end

section
/-! PROOFS. The framer (42_framer): the word each of its pure requests answers, and a request that puts its words on the link
in `READY`. -/

namespace Sys2Proof.Machine

/-! ### FRAME_CMD and FRAME_DATA, in every state (42_framer R120, R121) -/

/-- A word on `RES` keeps its numeric value (30_encoding R93). -/
theorem resOfWord_eq_ofNat (w : LinkWord) : resOfWord w = BitVec.ofNat 24 w.toNat :=
  (BitVec.ofNat_toNat 24 w).symm

theorem exec_frameCmd_eq (b : Byte) (s : State) :
    exec (.frameCmd b) s = .next { s with rsp := 0, res := resOfWord (commandWord b) } :=
  answerPure_next _ s

theorem exec_frameData_eq (b : Byte) (s : State) :
    exec (.frameData b) s = .next { s with rsp := 0, res := resOfWord (dataWord b) } :=
  answerPure_next _ s

/-- `op` 0xC takes its byte from the low byte of `a0` (30_encoding R91, R92). -/
theorem decodeReq_packReq_frameCmd (a0 a1 a2 a3 : Half) :
    decodeReq (packReq 0xC#4 a0 a1 a2 a3) = .ok (.frameCmd (lowByte a0)) := by
  simp [decodeReq]

/-- `op` 0xD takes its byte from the low byte of `a0` (30_encoding R91, R92). -/
theorem decodeReq_packReq_frameData (a0 a1 a2 a3 : Half) :
    decodeReq (packReq 0xD#4 a0 a1 a2 a3) = .ok (.frameData (lowByte a0)) := by
  simp [decodeReq]

/-- Settles O13: the value on `RES` is `commandWord_toNat`. -/
theorem frameCmdResult : Obligations.FrameCmdResult := by
  unfold Obligations.FrameCmdResult
  refine ⟨fun s b => ?_, fun a0 a1 a2 a3 => decodeReq_packReq_frameCmd a0 a1 a2 a3⟩
  rw [exec_frameCmd_eq, resOfWord_eq_ofNat, commandWord_toNat]

/-- Settles O14: the value on `RES` is `dataWord_toNat`. -/
theorem frameDataResult : Obligations.FrameDataResult := by
  unfold Obligations.FrameDataResult
  refine ⟨fun s b => ?_, fun a0 a1 a2 a3 => decodeReq_packReq_frameData a0 a1 a2 a3⟩
  rw [exec_frameData_eq, resOfWord_eq_ofNat, dataWord_toNat]

/-! ### Raw sends in `READY` (42_framer R122, R123) -/

/-- In `READY` with no failure ahead, a sending request whose body sends the words `ws` and changes the marks by `m` has sent
those words, with the marks changed and nothing else. -/
theorem exec_sending_sent {i : Instr} (hi : isSending i = true) {s : State} (hready : s.phase = .ready) (hn : NoFailure s)
    {m : Marks → Marks} {ws : List LinkWord} (hbody : Sends m ws s (sendingBody i s)) :
    ∃ t, exec i s = .next t ∧ Sent ws (s.withMarks (m s.marks)) t := by
  obtain ⟨t, ht, hd⟩ := hbody.completes hn
  refine ⟨t.respond codeOK, ?_, hd.sent⟩
  rw [exec_of_isSending hi, ready_runs hready, inOrder_single, ht, finish_ok]

/-- Settles O21: the body is `SendCmd`, one command word and `LASTCMD` (`sendCmd_sends`). -/
theorem sendCmdCompletes : Obligations.SendCmdCompletes := by
  unfold Obligations.SendCmdCompletes
  rintro s b ⟨hready, ho⟩ hn
  exact exec_sending_sent (i := .sendCmd b) rfl hready hn (sendCmd_sends b ho)

/-- Settles O22: the body is `SendData`, one data word and no mark (`sendData_sends`). -/
theorem sendDataCompletes : Obligations.SendDataCompletes := by
  unfold Obligations.SendDataCompletes
  rintro s b ⟨hready, ho⟩ hn
  exact exec_sending_sent (i := .sendData b) rfl hready hn (sendData_sends b ho)

end Sys2Proof.Machine
end

section
/-! PROOFS. The state-sequencer (43_sequencer): INIT rejected by a check, INIT whose build fails, INIT from a built transport
(`State.built`) completed or cut short in one of its seven steps, and CLOSE. -/

namespace Sys2Proof.Machine

/-! ### Rejected requests -/

/-- A procedure that raises an error other than a transport failure in the state it started from is a rejected request
(60_exceptions R203 to R205). -/
theorem finish_rejects {e : Err} (he : e ≠ .transport) (s : State) :
    ∃ t, finish (.raised e s) = .next t ∧ RejectedWith e s t :=
  ⟨s.enter e, rfl, enter_rejects he s⟩

/-! ### INIT's checks (43_sequencer R130, 60_exceptions R207) -/

/-- A strap that is no colour mode at all is the second check's. -/
theorem initBody_unknownMode {s : State} (hoff : s.phase = .off) (h12 : s.straps.colorMode ≠ mode12)
    (h16 : s.straps.colorMode ≠ mode16) (h18 : s.straps.colorMode ≠ mode18) : initBody s = .raised .invalidParam s := by
  have hmode : colorModeKnown s.straps.colorMode = false := by simp [colorModeKnown, h12, h16, h18]
  simp [initBody, initChecks, require, hoff, hmode]

/-- The 12-bit strap passes the second check and is the third one's. -/
theorem initBody_mode12 {s : State} (hoff : s.phase = .off) (hmode : s.straps.colorMode = mode12) :
    initBody s = .raised .unsupportedMode s := by
  simp [initBody, initChecks, require, hoff, hmode, colorModeKnown]

/-- Settles O36: each check in its place raises its error in the state INIT was presented in. -/
theorem initChecksComeFirst : Obligations.InitChecksComeFirst := by
  unfold Obligations.InitChecksComeFirst
  intro s
  simp only [exec_init_eq]
  refine ⟨fun hphase => ?_, fun hoff h12 h16 h18 => ?_, fun hoff h12 => ?_⟩
  · rw [initBody_notOff hphase]
    exact finish_rejects (by simp) s
  · rw [initBody_unknownMode hoff h12 h16 h18]
    exact finish_rejects (by simp) s
  · rw [initBody_mode12 hoff h12]
    exact finish_rejects (by simp) s

/-! ### The transport build (43_sequencer R131, R132) -/

/-- A run of `n` calls ends at the first one that fails. -/
theorem capabilityCalls_fails {n k : Nat} {s : State} {rest : List Bool} (hk : k < n)
    (ha : s.answers = List.replicate k true ++ false :: rest) :
    capabilityCalls n s = .raised .transport { s with answers := rest } := by
  induction n generalizing k s with
  | zero => omega
  | succ n ih =>
    unfold capabilityCalls capabilityCall
    cases k with
    | zero => simp [State.callSucceeds, State.takeAnswer, ha]
    | succ k =>
      have hgo : s.callSucceeds = true := by simp [State.callSucceeds, ha, List.replicate_succ]
      have hrest : s.takeAnswer.answers = List.replicate k true ++ false :: rest := by simp [ha, List.replicate_succ]
      rw [if_pos hgo, Run.ok_andThen, ih (by omega) hrest]
      rfl

/-- A build whose call `k` is the first to fail appends no event (43_sequencer R132). -/
theorem buildTransport_fails {k : Nat} {s : State} {rest : List Bool} (hk : k < buildCalls s.backend)
    (ha : s.answers = List.replicate k true ++ false :: rest) :
    buildTransport s = .raised .transport { s with answers := rest } := by
  rw [buildTransport, inOrder_cons, capabilityCalls_fails hk ha, Run.raised_andThen]

/-- Settles O37: the checks pass, the build's failing call is `k`, and the error enters in `OFF`. -/
theorem failedBuildStaysOff : Obligations.FailedBuildStaysOff := by
  unfold Obligations.FailedBuildStaysOff
  intro s k rest hoff hmode hk ha
  have hcalls : k < buildCalls s.latchStraps.backend := by
    rcases hk with ⟨hb, hk⟩ | ⟨hb, hk⟩ <;> simpa [hb, buildCalls] using hk
  rw [exec_init_eq, initBody, initChecks_pass hoff hmode, Run.ok_andThen, buildTransport_fails hcalls ha,
    Run.raised_andThen, finish_raised, enter_transport_off (s := { s.latchStraps with answers := rest }) hoff]
  exact ⟨_, rfl, rfl⟩

/-! ### INIT from a built transport -/

/-- The state in which INIT's seven steps start: the straps are latched, the build's events are appended, the handle is held
(43_sequencer R130 to R132); `initBody_cases` ties it to INIT. -/
def State.built (s : State) (as : List Bool) : State :=
  { s.latchStraps with
    answers := as, traceRev := (buildEvents s.straps.backend).reverse ++ s.traceRev, tpOpen := true, phase := .init }

@[simp] theorem State.built_trace (s : State) (as : List Bool) :
    (s.built as).trace = s.trace ++ buildEvents s.straps.backend := by
  simp [State.trace, State.built]

/-- Past its checks INIT either fails to build or runs its steps from the built state (43_sequencer R130). -/
theorem initBody_cases {s : State} (hoff : s.phase = .off)
    (hmode : s.straps.colorMode = mode16 ∨ s.straps.colorMode = mode18) :
    (∃ as, as <:+ s.answers ∧
      initBody s = (initSteps (s.built as)).andThen (inOrder [assign fun t => { t with phase := .ready }])) ∨
    (∃ as, false ∈ s.answers ∧ initBody s = .raised .transport { s.latchStraps with answers := as }) := by
  rw [initBody, initChecks_pass hoff hmode, Run.ok_andThen]
  rcases buildTransport_cases s.latchStraps with ⟨as, has, hbuild⟩ | ⟨as, _, hfalse, hbuild⟩
  · refine .inl ⟨as, has, ?_⟩
    rw [hbuild, State.emitAll_eq, Run.ok_andThen, initRun_eq]
    rfl
  · exact .inr ⟨as, hfalse, by rw [hbuild, Run.raised_andThen]⟩

/-- What the seven steps can end in from the built state. -/
theorem built_steps_run {s : State} (hmode : s.straps.colorMode = mode16 ∨ s.straps.colorMode = mode18) (as : List Bool) :
    StepsRun [1, 2, 3, 4, 5, 6, 7] (s.built as) (initSteps (s.built as)) :=
  steps_run [1, 2, 3, 4, 5, 6, 7] rfl hmode rfl

/-- The events the statements list for a build are those the build appends (43_sequencer R132). -/
theorem openEvents_eq (k : Backend) : openEvents k = buildEvents k := by
  cases k <;> rfl

/-- At 0 degrees the orientation byte has no mask (46_orientation R171), so the steps run from the built state leave the
events the statements list. -/
theorem initStepEvents_eq (s : State) (as : List Bool) :
    initStepEvents s.straps.backend s.straps.colorMode s.straps.bg s.params =
      ([1, 2, 3, 4, 5, 6, 7] : List (Fin 8)).map (stepEvents (s.built as)) := by
  have hupright : dataWord (madctrByte s.params .deg0) = 0x100#9 := show dataWord 0 = 0x100#9 by decide
  simp [initStepEvents, stepEvents, State.built, hupright]

/-- The built state's trace and the seven steps' events are the whole trace of INIT (43_sequencer R146). -/
theorem built_trace_append_steps (s : State) (as : List Bool) :
    (s.built as).trace ++ ([1, 2, 3, 4, 5, 6, 7] : List (Fin 8)).flatMap (stepEvents (s.built as)) =
      s.trace ++ initEvents s.straps.backend s.straps.colorMode s.straps.bg s.params := by
  rw [initEvents, openEvents_eq, initStepEvents_eq s as, State.built_trace, List.append_assoc, List.flatMap]

/-- A body touches the marks, the lines, `BITCNT`, `TRACE`, the answers and the controller side at most. -/
theorem KeepsSetup.frame_marks {s t : State} (k : KeepsSetup s t) :
    t = { s with
      orient := t.orient, stepNo := t.stepNo, pixCnt := t.pixCnt, lastCmd := t.lastCmd, win := t.win, lines := t.lines
      bitCnt := t.bitCnt, traceRev := t.traceRev, answers := t.answers, ctl := t.ctl, owed := t.owed
      draws := t.draws } :=
  have k' : KeepsSetup (s.withMarks t.marks) t := { k with }
  k'.frame rfl

/-! ### INIT completed (43_sequencer R140, R141, R146) -/

/-- After the seven steps the reset line is high, and the bit-banged lines idle as the last word of CLEAR left them
(20_memory R55). -/
theorem StepsRun.lines {s t : State} (h : StepsRun [1, 2, 3, 4, 5, 6, 7] s (.ok t)) :
    t.lines.rst = .one ∧ (s.backend = .bitBang → t.lines.cs = .one ∧ t.lines.sck = .one ∧
      ∃ w, (wordsOf t.trace).getLast? = some w ∧ t.lines.sda = levelOf (w.getLsbD 0)) := by
  obtain ⟨_, htrace, _, _, hlines, _⟩ := h
  constructor
  · rw [hlines]
    simp only [List.foldl_cons, List.foldl_nil, stepLines, linesAfterWords_rst]
    cases s.backend <;> rfl
  · intro hb
    have hsplit : ([1, 2, 3, 4, 5, 6, 7] : List (Fin 8)) = [1, 2, 3, 4, 5, 6] ++ [7] := rfl
    rw [hsplit, List.flatMap_append, ← List.append_assoc, List.flatMap_singleton] at htrace
    rw [htrace, hlines, hsplit, List.foldl_append, wordsOf_append]
    simp only [List.foldl_cons (l := []), List.foldl_nil, stepLines, stepEvents, wordsOf_wordsEvents]
    exact idle_after_words (clearWords_ne_nil _ _ _) hb _

/-- The seven steps send words (43_sequencer R135). -/
theorem wordsOf_steps_ne_nil (s : State) :
    wordsOf (([1, 2, 3, 4, 5, 6, 7] : List (Fin 8)).flatMap (stepEvents s)) ≠ [] := by
  simp [stepEvents]

/-- Which registers the seven steps leave, and at which values. -/
theorem StepsRun.frame {s t : State} (h : StepsRun [1, 2, 3, 4, 5, 6, 7] s (.ok t)) :
    t = { s with
      stepNo := 7, pixCnt := 0, lastCmd := some 0x2C, win := some ⟨2, 131, 1, 162⟩
      bitCnt := if s.backend = .bitBang then 0 else s.bitCnt
      lines := t.lines, traceRev := t.traceRev, answers := t.answers, ctl := t.ctl, owed := t.owed
      draws := t.draws } := by
  obtain ⟨hkeeps, _, _, hmarks, _, hbit⟩ := h
  obtain ⟨horient, hstep, hpix, hlast, hwin⟩ := Marks.mk.inj hmarks
  have hbit' : t.bitCnt = if s.backend = .bitBang then 0 else s.bitCnt := by
    simpa only [wordsOf_steps_ne_nil, ne_eq, not_false_eq_true, and_true] using hbit
  have hframe := hkeeps.frame_marks
  rw [horient, hstep, hpix, hlast, hwin, hbit'] at hframe
  exact hframe

/-- Settles O35: with no failure ahead the build succeeds and all seven steps run; their lines, their marks and what bodies
keep give the rest. -/
theorem initCompletes : Obligations.InitCompletes := by
  unfold Obligations.InitCompletes
  intro s hoff hmode hn
  rcases initBody_cases hoff hmode with ⟨as, has, hbody⟩ | ⟨_, hfalse, _⟩
  · have hrun := built_steps_run hmode as
    have hsteady := initSteps_steady (s.built as)
    obtain ⟨u, hu, htrace⟩ := hrun.completes fun a ha => hn a (has.subset ha)
    rw [hu] at hrun hsteady
    obtain ⟨_, hbl, ⟨_, hserial⟩, _⟩ := hsteady
    obtain ⟨hrst, hidle⟩ := hrun.lines
    refine ⟨({ u with phase := .ready } : State).respond codeOK, ?_, ?_, hrst, hbl, hidle, hserial, ?_⟩
    · rw [exec_init_eq, hbody, hu]
      rfl
    · exact htrace.trans (built_trace_append_steps s as)
    · exact congrArg (fun v : State => ({ v with phase := .ready } : State).respond codeOK) hrun.frame
  · exact absurd (hn false hfalse) (by simp)

/-! ### INIT cut short inside a step (43_sequencer R143) -/

/-- The steps are numbered from 1 in their order. -/
theorem length_before_step {before after : List (Fin 8)} {n : Fin 8}
    (h : [1, 2, 3, 4, 5, 6, 7] = before ++ n :: after) : n.val = before.length + 1 := by
  have hsteps : (List.finRange 7).map Fin.succ = before ++ n :: after := h
  have hlen : before.length < 7 := by
    have h7 : 7 = before.length + (after.length + 1) := by simpa using congrArg List.length h
    omega
  have hget : ((List.finRange 7).map Fin.succ)[before.length]? = some n := by rw [hsteps]; simp
  obtain rfl : Fin.succ ⟨before.length, hlen⟩ = n := by simpa [hlen] using hget
  rfl

/-- Where the failing step stands in the list of the steps' events, and what stands before it. -/
theorem steps_split {before after : List (Fin 8)} {n : Fin 8} (h : [1, 2, 3, 4, 5, 6, 7] = before ++ n :: after)
    (ev : Fin 8 → List Event) :
    1 ≤ n.val ∧ (([1, 2, 3, 4, 5, 6, 7] : List (Fin 8)).map ev)[n.val - 1]? = some (ev n) ∧
      ((([1, 2, 3, 4, 5, 6, 7] : List (Fin 8)).map ev).take (n.val - 1)).flatten = before.flatMap ev := by
  have hn : n.val - 1 = (before.map ev).length := by simp [length_before_step h]
  rw [h, List.map_append, hn, List.take_left' rfl]
  exact ⟨by simp [length_before_step h], by simp, rfl⟩

/-- INIT that answers `E_TRANSPORT` and has left `OFF` was cut short in one of its steps (60_exceptions R202). -/
theorem init_cut_short {s t : State} (hoff : s.phase = .off) (ht : exec .init s = .next t) (hrsp : t.rsp = 1)
    (hphase : t.phase ≠ .off) :
    ∃ as u, initSteps (s.built as) = .raised .transport u ∧ t = u.enter .transport ∧
      StepsRun [1, 2, 3, 4, 5, 6, 7] (s.built as) (.raised .transport u) := by
  rw [exec_init_eq] at ht
  rcases initChecks_cases s with ⟨e, he, hr⟩ | ⟨_, hmode, _⟩
  · rw [initBody, hr, Run.raised_andThen, finish_raised] at ht
    cases ht
    exact absurd (eq_transport_of_errCode ((enter_rsp e s).symm.trans hrsp)) he
  · rcases initBody_cases hoff hmode with ⟨as, _, hbody⟩ | ⟨as, _, hbody⟩
    · have hrun := built_steps_run hmode as
      rw [hbody] at ht
      cases hr : initSteps (s.built as) with
      | ok u =>
        rw [hr] at ht
        cases ht
        exact absurd (show (0 : BitVec 3) = 1 from hrsp) (by decide)
      | raised e u =>
        rw [hr] at ht hrun
        have ⟨he, _⟩ := hrun
        subst he
        cases ht
        exact ⟨as, u, hr, rfl, hrun⟩
      | stopped f =>
        rw [hr] at hrun
        exact hrun.elim
    · rw [hbody, finish_raised, enter_transport_off (s := { s.latchStraps with answers := as }) hoff] at ht
      cases ht
      exact absurd hoff hphase

/-- The build sends no word, so `LASTCMD` mirrors the built state's trace if it did the trace before (10_state R34). -/
theorem built_mirrors (s : State) (as : List Bool) : Mirrors s (s.built as) := by
  intro h
  rw [State.built_trace, lastCommand_append_of_no_word (wordsOf_buildEvents _)]
  exact h

/-- Entry of a transport failure inside `INIT` appends `Close` (43_sequencer R143). -/
theorem enter_transport_init_trace {s : State} (h : s.phase = .init) : (s.enter .transport).trace = s.trace ++ [.closed] := by
  rw [enter_transport_init h]
  simp [State.trace]

/-- Settles O38: the step that was cut short is one of the seven (`steps_split`), what bodies keep holds at the failure, and the
error enters in `INIT`. -/
theorem failedInitReleasesHandle : Obligations.FailedInitReleasesHandle := by
  unfold Obligations.FailedInitReleasesHandle
  intro s t hoff ht hrsp hphase
  obtain ⟨as, u, hu, rfl, _, hkeeps, _, horient, before, after, k, hsteps, hk, htrace⟩ := init_cut_short hoff ht hrsp hphase
  have hmirrors : Mirrors (s.built as) u := by
    have hsteady := initSteps_steady (s.built as)
    rw [hu] at hsteady
    obtain ⟨_, _, _, hm⟩ := hsteady
    exact hm
  have hinit : u.phase = .init := hkeeps.phase
  have hclosed := enter_transport_init_trace hinit
  have hframe := hkeeps.frame_marks
  rw [horient] at hframe
  have henter := enter_transport_init hinit
  have hstep : (u.enter .transport).stepNo = u.stepNo := by rw [henter]
  obtain ⟨hpos, hwhole, hbefore⟩ := steps_split hsteps (stepEvents (s.built as))
  rw [hstep]
  rw [← initStepEvents_eq s as] at hwhole hbefore
  refine ⟨by rw [henter], by rw [henter], enter_err _ u, hpos, fun hs => ?_, ?_, ?_⟩
  · rw [hclosed, lastCommand_append_of_no_word rfl, henter]
    exact hmirrors (built_mirrors s as hs)
  · refine ⟨_, (stepEvents (s.built as) u.stepNo).take k, _, rfl, hwhole, List.take_prefix _ _, fun heq => ?_, ?_⟩
    · have hlen : (stepEvents (s.built as) u.stepNo).length ≤ k := by simpa using congrArg List.length heq
      omega
    · rw [hbefore, hclosed, htrace, State.built_trace, openEvents_eq]
  · rw [henter]
    exact henter.symm.trans (congrArg (State.enter .transport) hframe)

/-! ### CLOSE (43_sequencer R144) -/

/-- What the release of the handle writes: the phase, the handle, and `Close` if the handle was held. -/
theorem State.release_eq (s : State) : s.release = { s with
    phase := .closed, tpOpen := false, traceRev := if s.tpOpen then .closed :: s.traceRev else s.traceRev } := by
  unfold State.release
  cases s.tpOpen <;> rfl

/-- `op` 0x7 has no operand (30_encoding R91). -/
theorem decodeReq_packReq_close (a0 a1 a2 a3 : Half) : decodeReq (packReq 0x7#4 a0 a1 a2 a3) = .ok .close := by
  simp [decodeReq]

/-- Settles O39: the phase check decides between the release of the handle and a rejection. -/
theorem closeCompletes : Obligations.CloseCompletes := by
  unfold Obligations.CloseCompletes
  simp only [exec_close_eq]
  refine ⟨fun s hphase => ⟨s.release.respond codeOK, ?_, ?_⟩, fun s hphase => ?_, decodeReq_packReq_close⟩
  · rw [closeBody, inOrder_cons, require_pass (by simpa using hphase)]
    rfl
  · rw [State.release_eq]
    rfl
  · have hc : (s.phase == .ready || s.phase == .failed) = false := by
      rcases hphase with h | h | h <;> rw [h] <;> rfl
    rw [closeBody, inOrder_cons, require_fail hc, Run.raised_andThen]
    exact finish_rejects (by simp) s

end Sys2Proof.Machine
end

section
/-! PROOFS. The addressing window and clear (44_window_clear): which operands pass the range check, SET_WINDOW and CLEAR
completed or rejected in `READY`, and how many words the requests send. -/

namespace Sys2Proof.Machine

/-! ### The four window values (44_window_clear R150, R151) -/

theorem WindowSums.inRange_iff {v : WindowSums} :
    v.inRange = true ↔ v.xs ≤ 255 ∧ v.xe ≤ 255 ∧ v.ys ≤ 255 ∧ v.ye ≤ 255 := by
  simp only [WindowSums.inRange, Bool.and_eq_true, decide_eq_true_eq, and_assoc]

/-- The row start needs no bound of its own: `y + h <= 254` gives it. -/
theorem windowSums_inRange_iff {x y w h : Half} : (windowSums x y w h).inRange = true ↔
    x.toNat + w.toNat ≤ 254 ∧ x.toNat ≤ 253 ∧ y.toNat + h.toNat ≤ 254 := by
  simp only [WindowSums.inRange_iff, windowSums]
  omega

/-- The check refuses exactly the operands with a sum above `COORD_MAX`. -/
theorem windowSums_outOfRange_iff {x y w h : Half} : (windowSums x y w h).inRange = false ↔
    255 < x.toNat + 2 ∨ 255 < x.toNat + w.toNat + 1 ∨ 255 < y.toNat + 1 ∨ 255 < y.toNat + h.toNat + 1 := by
  rw [← Bool.not_eq_true, windowSums_inRange_iff]
  omega

/-- Bytes that are the four exact sums pass the check and are what is sent (30_encoding R85). -/
theorem windowSums_of_bytes {x y w h : Half} {v : Window} (hxs : v.xs.toNat = x.toNat + 2)
    (hxe : v.xe.toNat = x.toNat + w.toNat + 1) (hys : v.ys.toNat = y.toNat + 1)
    (hye : v.ye.toNat = y.toNat + h.toNat + 1) :
    (windowSums x y w h).inRange = true ∧ (windowSums x y w h).bytes = v := by
  have hxe_lt := v.xe.isLt
  have hxs_lt := v.xs.isLt
  have hye_lt := v.ye.isLt
  refine ⟨windowSums_inRange_iff.2 (by omega), ?_⟩
  rw [windowSums, WindowSums.bytes, ← hxs, ← hxe, ← hys, ← hye]
  simp only [BitVec.ofNat_toNat, BitVec.setWidth_eq]

/-! ### SET_WINDOW and CLEAR in `READY` (44_window_clear R150 to R154) -/

/-- In `READY`, a sending request whose body raises an error before it does anything is a rejected request. -/
theorem exec_sending_rejected {i : Instr} (hi : isSending i = true) {s : State} (hready : s.phase = .ready) {e : Err}
    (he : e ≠ .transport) (hbody : sendingBody i s = .raised e s) :
    ∃ t, exec i s = .next t ∧ RejectedWith e s t := by
  rw [exec_of_isSending hi, ready_runs hready, inOrder_single, hbody]
  exact finish_rejects he s

/-- SET_WINDOW past its range check sends the window of its sums. -/
theorem exec_setWindow_sent {s : State} (hs : Serving s) (hn : NoFailure s) {x y w h : Half}
    (hr : (windowSums x y w h).inRange = true) :
    ∃ t, exec (.setWindow x y w h) s = .next t ∧ Sent (windowWords (windowSums x y w h).bytes)
      { s with lastCmd := some 0x2C, win := some (windowSums x y w h).bytes } t := by
  obtain ⟨hready, ho⟩ := hs
  exact exec_sending_sent (i := .setWindow x y w h) rfl hready hn (setWindowBody_sends hr ho)

theorem exec_setWindow_rejected {s : State} (hready : s.phase = .ready) {x y w h : Half}
    (hr : (windowSums x y w h).inRange = false) :
    ∃ t, exec (.setWindow x y w h) s = .next t ∧ RejectedWith .invalidParam s t :=
  exec_sending_rejected (i := .setWindow x y w h) rfl hready (by simp) (setWindowBody_rejects hr s)

/-- Settles O26: the bytes given are those the request computes (`windowSums_of_bytes`). -/
theorem setWindowCompletes : Obligations.SetWindowCompletes := by
  unfold Obligations.SetWindowCompletes
  intro s x y w h v hs hn hxs hxe hys hye
  obtain ⟨hr, rfl⟩ := windowSums_of_bytes hxs hxe hys hye
  exact exec_setWindow_sent hs hn hr

/-- Settles O27: the range check decides between the eleven words and a rejection, whose response is not OK. -/
theorem setWindowRejectsOutOfRange : Obligations.SetWindowRejectsOutOfRange := by
  unfold Obligations.SetWindowRejectsOutOfRange
  refine ⟨fun s x y w h hready hsum => exec_setWindow_rejected hready (windowSums_outOfRange_iff.2 hsum),
    fun s x y w h hs hn => ?_⟩
  rw [← windowSums_inRange_iff]
  cases hr : (windowSums x y w h).inRange with
  | true =>
    obtain ⟨t, ht, hsent⟩ := exec_setWindow_sent hs hn hr
    exact iff_of_true ⟨t, ht, hsent.answered⟩ rfl
  | false =>
    obtain ⟨hready, _⟩ := hs
    obtain ⟨u, hu, hrejected⟩ := exec_setWindow_rejected hready hr
    refine iff_of_false (fun ⟨t, ht, hrsp⟩ => ?_) (by simp)
    obtain rfl : u = t := by simpa [hu] using ht
    have hcode : errCode .invalidParam = 0 := (congrArg State.rsp hrejected).symm.trans hrsp
    exact absurd hcode (by decide)

/-- Settles O28: the body is the full-panel window and its pixels (`clearBody_sends`), or the error of 12-bit mode. -/
theorem clearCompletes : Obligations.ClearCompletes := by
  unfold Obligations.ClearCompletes
  rintro s r g b ⟨hready, ho⟩
  refine ⟨fun hmode hn => ?_, fun hmode => ?_⟩
  · exact exec_sending_sent (i := .clear r g b) rfl hready hn (clearBody_sends ⟨r, g, b⟩ ho hmode)
  · exact exec_sending_rejected (i := .clear r g b) rfl hready (by simp) (clearBody_unsupported ⟨r, g, b⟩ hmode)

/-! ### Word counts (44_window_clear R155, 43_sequencer R146) -/

theorem windowWords_length (v : Window) : (windowWords v).length = 11 := rfl

/-- Two words a pixel in 16-bit mode (30_encoding R86). -/
theorem pixelWords_length_mode16 (a : Pix18Align) (c : Color) : (pixelWords a mode16 c).length = 2 := rfl

/-- Three words a pixel in 18-bit mode, whatever `PIX18_ALIGN` is (30_encoding R87). -/
theorem pixelWords_length_mode18 (a : Pix18Align) (c : Color) : (pixelWords a mode18 c).length = 3 := by
  cases a <;> rfl

theorem pixelsWords_length (a : Pix18Align) (mode : Byte) (c : Color) (n : Nat) :
    (pixelsWords a mode c n).length = n * (pixelWords a mode c).length := by
  induction n with
  | zero => simp [pixelsWords]
  | succ n ih => rw [pixelsWords, List.length_append, ih, Nat.succ_mul, Nat.add_comm]

theorem clearWords_length (a : Pix18Align) (mode : Byte) (c : Color) :
    (clearWords a mode c).length = 11 + 20930 * (pixelWords a mode c).length := by
  rw [clearWords, List.length_append, windowWords_length, pixelsWords_length]

theorem clearWords_length_mode16 (a : Pix18Align) (c : Color) : (clearWords a mode16 c).length = 41871 := by
  rw [clearWords_length, pixelWords_length_mode16]

theorem clearWords_length_mode18 (a : Pix18Align) (c : Color) : (clearWords a mode18 c).length = 62801 := by
  rw [clearWords_length, pixelWords_length_mode18]

@[simp] theorem wordsOf_powerResetEvents (k : Backend) : wordsOf (powerResetEvents k) = [] := by
  cases k <;> rfl

@[simp] theorem wordsOf_wait_cons (n : Nat) (es : List Event) : wordsOf (.wait n :: es) = wordsOf es := rfl

@[simp] theorem wordsOf_sleepOutWait (n : Nat) : wordsOf (sleepOutWait n) = [] := by
  unfold sleepOutWait
  split <;> rfl

/-- Seven words of INIT come before those of CLEAR (43_sequencer R135 to R141). -/
theorem wordsOf_initEvents (k : Backend) (mode : Byte) (c : Color) (p : Params) : wordsOf (initEvents k mode c p) =
    [0x001#9, 0x03A#9, dataWord mode, 0x011#9, 0x029#9, 0x036#9, 0x100#9] ++ clearWords p.pix18Align mode c := by
  simp [initEvents, initStepEvents, openEvents_eq, wordsOf_buildEvents]

theorem initEvents_words_length (k : Backend) (mode : Byte) (c : Color) (p : Params) :
    (wordsOf (initEvents k mode c p)).length = 7 + (clearWords p.pix18Align mode c).length := by
  rw [wordsOf_initEvents, List.length_append]
  rfl

theorem initEvents_words_length_mode16 (k : Backend) (c : Color) (p : Params) :
    (wordsOf (initEvents k mode16 c p)).length = 41878 := by
  rw [initEvents_words_length, clearWords_length_mode16]

theorem initEvents_words_length_mode18 (k : Backend) (c : Color) (p : Params) :
    (wordsOf (initEvents k mode18 c p)).length = 62808 := by
  rw [initEvents_words_length, clearWords_length_mode18]

/-- A request that sent the words `ws` made the words of the trace longer by their number. -/
theorem Sent.words_length {ws : List LinkWord} {s t : State} (h : Sent ws s t) :
    (wordsOf t.trace).length = (wordsOf s.trace).length + ws.length := by
  rw [h.trace, wordsOf_append, List.length_append, wordsOf_wordsEvents]

/-- A rejected request leaves the trace as it was (60_exceptions R203 to R205). -/
theorem RejectedWith.trace {e : Err} {s t : State} (h : RejectedWith e s t) : t.trace = s.trace := by
  rw [h]
  rfl

/-- The words of CLEAR with no failure ahead, in a mode with pixels. -/
theorem exec_clear_words_length {s : State} (hs : Serving s) (hn : NoFailure s) (r g b : Byte)
    (hmode : s.colorMode = mode16 ∨ s.colorMode = mode18) :
    ∃ t, exec (.clear r g b) s = .next t ∧ (wordsOf t.trace).length =
      (wordsOf s.trace).length + (clearWords s.params.pix18Align s.colorMode ⟨r, g, b⟩).length := by
  obtain ⟨hcompletes, _⟩ := clearCompletes s r g b hs
  obtain ⟨t, ht, hsent⟩ := hcompletes hmode hn
  exact ⟨t, ht, hsent.words_length⟩

/-- The words of INIT with no failure ahead, with a strap that has pixels. -/
theorem exec_init_words_length {s : State} (hoff : s.phase = .off) (hn : NoFailure s)
    (hmode : s.straps.colorMode = mode16 ∨ s.straps.colorMode = mode18) :
    ∃ t, exec .init s = .next t ∧ (wordsOf t.trace).length = (wordsOf s.trace).length +
      (wordsOf (initEvents s.straps.backend s.straps.colorMode s.straps.bg s.params)).length := by
  obtain ⟨t, ht, htrace, _⟩ := initCompletes s hoff hmode hn
  exact ⟨t, ht, by rw [htrace, wordsOf_append, List.length_append]⟩

/-- Settles O34: the lists are counted, and each request completed adds the words of its list. -/
theorem wordCounts : Obligations.WordCounts := by
  unfold Obligations.WordCounts
  refine ⟨windowWords_length, fun a c => ⟨clearWords_length_mode16 a c, clearWords_length_mode18 a c⟩,
    fun k c p => ⟨initEvents_words_length_mode16 k c p, initEvents_words_length_mode18 k c p⟩,
    fun s x y w h hs hn hxw hx hyh => ?_, fun s r g b hs hn => ⟨fun (hmode : s.colorMode = mode16) => ?_,
      fun (hmode : s.colorMode = mode18) => ?_, fun hmode => ?_⟩,
    fun s hoff hn => ⟨fun (hmode : s.straps.colorMode = mode16) => ?_,
      fun (hmode : s.straps.colorMode = mode18) => ?_⟩⟩
  · obtain ⟨t, ht, hsent⟩ := exec_setWindow_sent hs hn (windowSums_inRange_iff.2 ⟨hxw, hx, hyh⟩)
    exact ⟨t, ht, hsent.words_length⟩
  · obtain ⟨t, ht, hlength⟩ := exec_clear_words_length hs hn r g b (.inl hmode)
    exact ⟨t, ht, by rw [hlength, hmode, clearWords_length_mode16]⟩
  · obtain ⟨t, ht, hlength⟩ := exec_clear_words_length hs hn r g b (.inr hmode)
    exact ⟨t, ht, by rw [hlength, hmode, clearWords_length_mode18]⟩
  · obtain ⟨_, hrejects⟩ := clearCompletes s r g b hs
    obtain ⟨t, ht, hrejected⟩ := hrejects hmode
    exact ⟨t, ht, hrejected.trace⟩
  · obtain ⟨t, ht, hlength⟩ := exec_init_words_length hoff hn (.inl hmode)
    exact ⟨t, ht, by rw [hlength, hmode, initEvents_words_length_mode16]⟩
  · obtain ⟨t, ht, hlength⟩ := exec_init_words_length hoff hn (.inr hmode)
    exact ⟨t, ht, by rw [hlength, hmode, initEvents_words_length_mode18]⟩

end Sys2Proof.Machine
end

section
/-! PROOFS. Pixel streaming (45_pixel_streaming): one pixel given as a colour or as a packed value, completed or rejected in
`READY`, and the agreement of the two forms in 16-bit mode. -/

namespace Sys2Proof.Machine

/-! ### The bodies of the two requests (45_pixel_streaming R161, R162) -/

section
variable {s : State}

theorem streamPixel_mode16 (c : Color) (hmode : s.colorMode = mode16) :
    streamPixel c s = sendBytes (pixel16 (pack565 c)) s :=
  if_pos hmode

/-- A packed value is sent as it is: it need not come from a colour. -/
theorem sendPixelP16Body_mode16 (p : Half) (hmode : s.colorMode = mode16) :
    sendingBody (.sendPixelP16 p) s = sendBytes (pixel16 p) s := by
  rw [sendingBody, inOrder_cons, require_pass (by simpa using hmode), Run.ok_andThen, inOrder_single]

theorem sendPixelP16Body_unsupported (p : Half) (hmode : s.colorMode ≠ mode16) :
    sendingBody (.sendPixelP16 p) s = .raised .unsupportedMode s := by
  rw [sendingBody, inOrder_cons, require_fail (by simpa using hmode), Run.raised_andThen]

end

/-- Packing and unpacking again lose nothing, so both requests send the bytes of `p` (41_color_packer R113 law 2). -/
theorem sendPixelP16Body_eq_streamPixel_unpack565 {s : State} (p : Half) (hmode : s.colorMode = mode16) :
    sendingBody (.sendPixelP16 p) s = streamPixel (unpack565 p) s := by
  rw [sendPixelP16Body_mode16 p hmode, streamPixel_mode16 _ hmode, pack565_unpack565]

/-! ### The statements -/

/-- Settles O23: the body is `StreamPixel`, which sends the words of the mode (`streamPixel_sends`), or the error of 12-bit
mode; it reads no `LASTCMD`. -/
theorem sendPixelCompletes : Obligations.SendPixelCompletes := by
  unfold Obligations.SendPixelCompletes
  rintro s r g b ⟨hready, ho⟩
  refine ⟨fun hmode hn => ?_, fun hmode => ?_⟩
  · exact exec_sending_sent (i := .sendPixel r g b) rfl hready hn (streamPixel_sends ⟨r, g, b⟩ ho hmode)
  · exact exec_sending_rejected (i := .sendPixel r g b) rfl hready (by simp) (streamPixel_unsupported ⟨r, g, b⟩ hmode)

/-- Settles O24: past the mode check the body sends the bytes of `pixel16 p` (`sendBytes_sends`). -/
theorem sendPixelP16Completes : Obligations.SendPixelP16Completes := by
  unfold Obligations.SendPixelP16Completes
  rintro s p ⟨hready, ho⟩
  refine ⟨fun hmode hn => ?_, fun hmode => ?_⟩
  · have hsends : Sends id ((pixel16 p).map dataWord) s (sendingBody (.sendPixelP16 p) s) := by
      rw [sendPixelP16Body_mode16 p hmode]
      exact sendBytes_sends (pixel16 p) ho
    exact exec_sending_sent (i := .sendPixelP16 p) rfl hready hn hsends
  · exact exec_sending_rejected (i := .sendPixelP16 p) rfl hready (by simp) (sendPixelP16Body_unsupported p hmode)

/-- Settles O25: `RES` holds the channels of `unpack565 p`, and the two bodies are the same run from every state in 16-bit
mode, failures included. -/
theorem packedPixelAgreesWithUnpackedPixel : Obligations.PackedPixelAgreesWithUnpackedPixel := by
  unfold Obligations.PackedPixelAgreesWithUnpackedPixel
  intro s u p hready hmode hu
  rw [exec_unpack565_eq] at hu
  cases hu
  rw [extract_resOfColor_r, extract_resOfColor_g, extract_resOfColor_b, exec_of_isSending rfl, exec_of_isSending rfl,
    ready_runs hready, ready_runs hready, inOrder_single, inOrder_single]
  exact congrArg finish (sendPixelP16Body_eq_streamPixel_unpack565 p hmode)

end Sys2Proof.Machine
end

section
/-! PROOFS. Orientation (46_orientation): which operands name an orientation, SET_ORIENTATION completed or rejected in
`READY`, and the orientation read back from its byte. -/

namespace Sys2Proof.Machine

/-! ### SET_ORIENTATION in `READY` (46_orientation R170 to R172) -/

/-- The rows of the orientation table are what the request computes from the operand and the masks. -/
theorem orientationOf_and_madctrByte_of_table {p : Params} {d : Half} {o : Orientation} {byte : Byte}
    (h : (d = 0 ∧ o = .deg0 ∧ byte = 0x00) ∨ (d = 90 ∧ o = .deg90 ∧ byte = p.madctrMV ||| p.madctrMX) ∨
      (d = 180 ∧ o = .deg180 ∧ byte = p.madctrMY ||| p.madctrMX) ∨
      (d = 270 ∧ o = .deg270 ∧ byte = p.madctrMV ||| p.madctrMY)) :
    orientationOf d = some o ∧ madctrByte p o = byte := by
  rcases h with ⟨rfl, rfl, rfl⟩ | ⟨rfl, rfl, rfl⟩ | ⟨rfl, rfl, rfl⟩ | ⟨rfl, rfl, rfl⟩
  all_goals exact ⟨rfl, rfl⟩

/-- No other operand names an orientation; there is no reduction modulo 360. -/
theorem orientationOf_eq_none {d : Half} (h0 : d ≠ 0) (h90 : d ≠ 90) (h180 : d ≠ 180) (h270 : d ≠ 270) :
    orientationOf d = none := by
  rw [orientationOf, if_neg h0, if_neg h90, if_neg h180, if_neg h270]

theorem setOrientationBody_of_some {d : Half} {o : Orientation} (h : orientationOf d = some o) :
    setOrientationBody d = sendOrientation o := by
  rw [setOrientationBody, h]

theorem setOrientationBody_of_none {d : Half} (h : orientationOf d = none) (s : State) :
    setOrientationBody d s = .raised .invalidParam s := by
  rw [setOrientationBody, h]

/-- Settles O29: the body is the two words of the orientation the operand names, then `ORIENT` (`sendOrientation_sends`). -/
theorem setOrientationCompletes : Obligations.SetOrientationCompletes := by
  unfold Obligations.SetOrientationCompletes
  rintro s d o byte ⟨hready, ho⟩ hn htable
  obtain ⟨hd, rfl⟩ := orientationOf_and_madctrByte_of_table htable
  have hsends := sendOrientation_sends o ho
  rw [← setOrientationBody_of_some hd] at hsends
  exact exec_sending_sent (i := .setOrientation d) rfl hready hn hsends

/-- Settles O30: an operand that names no orientation raises before any statement that sends or writes. -/
theorem setOrientationRejectsOthers : Obligations.SetOrientationRejectsOthers := by
  unfold Obligations.SetOrientationRejectsOthers
  intro s d hready h0 h90 h180 h270
  have hnone := orientationOf_eq_none h0 h90 h180 h270
  exact exec_sending_rejected (i := .setOrientation d) rfl hready (by simp) (setOrientationBody_of_none hnone s)

/-! ### The orientation is read back from its byte (46_orientation R171, R173) -/

theorem singleBit_iff_twoPow : ∀ {m : Byte}, singleBit m = true ↔ ∃ i : Fin 8, m = BitVec.twoPow 8 i := by
  decide

/-- A single-bit mask has a bit that no other single-bit mask has. -/
theorem exists_own_bit {m : Byte} (hm : singleBit m = true) :
    ∃ i, m.getLsbD i = true ∧ ∀ k, singleBit k = true → k ≠ m → k.getLsbD i = false := by
  obtain ⟨i, rfl⟩ := singleBit_iff_twoPow.1 hm
  refine ⟨i, by simp, fun k hk hne => ?_⟩
  obtain ⟨j, rfl⟩ := singleBit_iff_twoPow.1 hk
  have hji : (i : Nat) ≠ j := fun h => hne (by rw [h])
  simp [hji]

theorem Params.wf_iff {p : Params} : p.wf = true ↔
    singleBit p.madctrMY = true ∧ singleBit p.madctrMX = true ∧ singleBit p.madctrMV = true ∧
      p.madctrMY ≠ p.madctrMX ∧ p.madctrMY ≠ p.madctrMV ∧ p.madctrMX ≠ p.madctrMV := by
  simp only [Params.wf, Bool.and_eq_true, bne_iff_ne, and_assoc]

/-- The orientation whose byte has these bits of `MV` and of `MX`. -/
def orientationOfBits : (mv mx : Bool) → Orientation
  | false, false => .deg0
  | true, true => .deg90
  | false, true => .deg180
  | true, false => .deg270

/-- The own bits of `MV` and `MX` in the byte name the orientation the byte was made for. -/
theorem exists_orientationOfBits_madctrByte {p : Params} (hwf : p.wf = true) :
    ∃ v x, ∀ o, orientationOfBits ((madctrByte p o).getLsbD v) ((madctrByte p o).getLsbD x) = o := by
  obtain ⟨hmy, hmx, hmv, hyx, hyv, hxv⟩ := Params.wf_iff.1 hwf
  obtain ⟨v, mv_at_v, others_at_v⟩ := exists_own_bit hmv
  obtain ⟨x, mx_at_x, others_at_x⟩ := exists_own_bit hmx
  have my_at_v := others_at_v _ hmy hyv
  have mx_at_v := others_at_v _ hmx hxv
  have my_at_x := others_at_x _ hmy hyx
  have mv_at_x := others_at_x _ hmv hxv.symm
  refine ⟨v, x, fun o => ?_⟩
  cases o with
  | deg0 => simp [madctrByte, orientationOfBits]
  | deg90 => simp [madctrByte, orientationOfBits, mv_at_v, mx_at_x]
  | deg180 => simp [madctrByte, orientationOfBits, my_at_v, mx_at_v, mx_at_x]
  | deg270 => simp [madctrByte, orientationOfBits, mv_at_v, mv_at_x, my_at_x]

/-- Settles O31: each orientation is read back from its byte, so equal bytes are of one orientation. -/
theorem orientationBytesDiffer : Obligations.OrientationBytesDiffer := by
  unfold Obligations.OrientationBytesDiffer
  intro p o o' hwf hbyte
  obtain ⟨v, x, hback⟩ := exists_orientationOfBits_madctrByte hwf
  rw [← hback o, hbyte, hback o']

end Sys2Proof.Machine
end

section
/-! PROOFS. The link commands (47_link_commands): the command word outside the table, and what the words of a request leave at
the controller when no quiet time is owed. -/

namespace Sys2Proof.Machine

/-! ### A command word outside the table (47_link_commands R190) -/

/-- The raw send of a code is SEND_CMD of it (log 11). -/
theorem rawCommand_eq_exec_sendCmd (code : Byte) (s : State) : rawCommand code s = exec (.sendCmd code) s := rfl

/-- Settles O8: the word is served by the raw send of its code, so `sendCmdCompletes` says what it leaves. -/
theorem unnamedCommandWordIsSent : Obligations.UnnamedCommandWordIsSent := by
  unfold Obligations.UnnamedCommandWordIsSent
  intro s code rest hhost hdec hs hn
  have hstep : step s = exec (.sendCmd code) (s.withHost rest) := by
    rw [step_of_host_present hhost, ← rawCommand_eq_exec_sendCmd]
    simp only [serveFrame, hdec]
  rw [hstep]
  exact sendCmdCompletes (s.withHost rest) code hs hn

/-! ### A command and its data words at the controller (47_link_commands R181 to R187, R189) -/

/-- The controller side after data words, the first one at draw `n`; `takes_data` ties it to delivery. -/
def Controller.receiveBytes (n : Nat) : List Byte → Controller → Controller
  | [], c => c
  | b :: bs, c => receiveBytes (n + 1) bs (c.receiveData n b)

section
variable (n m : Nat) (c : Controller)

theorem receiveCommand_slpout : c.receiveCommand n codeSLPOUT =
    { c with cmd := some codeSLPOUT, args := [], asleep := false } := rfl

theorem receiveCommand_dispon : c.receiveCommand n codeDISPON =
    { c with cmd := some codeDISPON, args := [], displayOn := true } := rfl

theorem receiveCommand_ramwr : c.receiveCommand n codeRAMWR = { c with cmd := some codeRAMWR, args := [] } := rfl

/-- Four bytes after CASET are the column range (R183); the free values before the fourth are overwritten. -/
theorem receiveBytes_caset (a b d e : Byte) : (c.receiveCommand n codeCASET).receiveBytes m [a, b, d, e] =
    { c with cmd := some codeCASET, args := [e, d, b, a], colStart := a ++ b, colEnd := d ++ e } := rfl

/-- Four bytes after RASET are the row range (R184). -/
theorem receiveBytes_raset (a b d e : Byte) : (c.receiveCommand n codeRASET).receiveBytes m [a, b, d, e] =
    { c with cmd := some codeRASET, args := [e, d, b, a], rowStart := a ++ b, rowEnd := d ++ e } := rfl

/-- The byte after MADCTR is its value (R186). -/
theorem receiveBytes_madctr (d : Byte) : (c.receiveCommand n codeMADCTR).receiveBytes m [d] =
    { c with cmd := some codeMADCTR, args := [d], madctr := d } := rfl

/-- A colour mode after COLMOD is its value (R187; log 33). -/
theorem receiveBytes_colmod {d : Byte} (hd : colorModeKnown d = true) :
    (c.receiveCommand n codeCOLMOD).receiveBytes m [d] =
      { c with cmd := some codeCOLMOD, args := [d], colMode := d } :=
  if_pos hd

variable {c} in
/-- Bytes of the open pixel stream change no register (R185; log 31). -/
theorem receiveBytes_ramwr (hcmd : c.cmd = some codeRAMWR) (bs : List Byte) :
    c.receiveBytes n bs = { c with args := bs.reverse ++ c.args } := by
  induction bs generalizing n c with
  | nil => rfl
  | cons b bs ih =>
    have hb : c.receiveData n b = { c with args := b :: c.args } := by simp [Controller.receiveData, hcmd]
    have hbs := ih (n + 1) (c := { c with args := b :: c.args }) hcmd
    rw [Controller.receiveBytes, hb, hbs, List.reverse_cons, List.append_assoc]
    rfl

end

/-! ### Words delivered with no quiet time owed -/

/-- The words `ws`, delivered in the state `s`, leave the controller side at `c` and owe it no quiet time. -/
structure Takes (ws : List LinkWord) (s : State) (c : Controller) : Prop where
  ctl : (delivered ws s).ctl = c
  owed : (delivered ws s).owed = 0

theorem delivered_cons (w : LinkWord) (ws : List LinkWord) (s : State) :
    delivered (w :: ws) s = delivered ws (s.deliver w) := rfl

theorem delivered_append (ws ws' : List LinkWord) (s : State) : delivered (ws ++ ws') s = delivered ws' (delivered ws s) :=
  List.foldl_append

/-- Words taken one after another. -/
theorem Takes.append {ws ws' : List LinkWord} {s : State} {c c' : Controller} (h : Takes ws s c)
    (k : ∀ t : State, t.owed = 0 → t.ctl = c → Takes ws' t c') : Takes (ws ++ ws') s c' := by
  obtain ⟨hctl, howed⟩ := k (delivered ws s) h.owed h.ctl
  rw [← delivered_append] at hctl howed
  exact ⟨hctl, howed⟩

theorem dataWord_ne_commandWord (d code : Byte) : dataWord d ≠ commandWord code := fun h => by
  simpa using congrArg LinkWord.dc h

/-- A data word owes the controller nothing new (70_reset_and_hazards R235, R236). -/
theorem owedAfterWord_dataWord (d : Byte) (owed : Nat) : owedAfterWord (dataWord d) owed = owed := by
  simp [owedAfterWord, dataWord_ne_commandWord]

section
variable {s : State} (howed : s.owed = 0)
include howed

theorem deliver_commandWord_ctl (code : Byte) :
    (s.deliver (commandWord code)).ctl = s.ctl.receiveCommand s.draws code := by
  rw [State.deliver_ctl, howed, receive_command]

theorem takes_data (bs : List Byte) : Takes (bs.map dataWord) s (s.ctl.receiveBytes s.draws bs) := by
  induction bs generalizing s with
  | nil => exact ⟨rfl, howed⟩
  | cons b bs ih =>
    have hb : (s.deliver (dataWord b)).owed = 0 := by rw [State.deliver_owed, owedAfterWord_dataWord, howed]
    obtain ⟨hctl, hend⟩ := ih hb
    refine ⟨?_, hend⟩
    rw [List.map_cons, delivered_cons, hctl, State.deliver_ctl, howed, receive_data]
    rfl

/-- A command that owes the controller no quiet time (70_reset_and_hazards R235, R236), and the data words after it. -/
theorem takes_command {code : Byte} (hreset : commandWord code ≠ commandWord codeSWRESET)
    (hsleep : commandWord code ≠ commandWord codeSLPOUT) (bs : List Byte) :
    Takes (commandWord code :: bs.map dataWord) s
      ((s.ctl.receiveCommand s.draws code).receiveBytes (s.draws + 1) bs) := by
  have hcode : (s.deliver (commandWord code)).owed = 0 := by
    rw [State.deliver_owed, owedAfterWord, if_neg hreset, if_neg hsleep, howed]
  rw [← deliver_commandWord_ctl howed]
  obtain ⟨hctl, hend⟩ := takes_data hcode bs
  exact ⟨hctl, hend⟩

/-- The eleven words of a window fill both ranges, high bytes 0, and open the pixel stream (R183 to R185). -/
theorem takes_window (v : Window) : Takes (windowWords v) s { s.ctl with
    colStart := 0#8 ++ v.xs, colEnd := 0#8 ++ v.xe, rowStart := 0#8 ++ v.ys, rowEnd := 0#8 ++ v.ye
    cmd := some codeRAMWR, args := [] } := by
  have hcols := takes_command howed (code := codeCASET) (by decide) (by decide) [0, v.xs, 0, v.xe]
  rw [receiveBytes_caset] at hcols
  refine hcols.append fun t ht hctl => ?_
  have hrows := takes_command ht (code := codeRASET) (by decide) (by decide) [0, v.ys, 0, v.ye]
  rw [receiveBytes_raset, hctl] at hrows
  refine hrows.append fun u hu hctl => ?_
  have hstream := takes_command hu (code := codeRAMWR) (by decide) (by decide) []
  rw [receiveCommand_ramwr, hctl] at hstream
  exact hstream

end

/-! ### What a completed request leaves at the controller -/

/-- In `READY` with no failure ahead, a sending request whose body sends the words `ws` ends by running that body and
answering OK. -/
theorem exec_sending_done {i : Instr} (hi : isSending i = true) {s t : State} (hs : Serving s) (hn : NoFailure s)
    {m : Marks → Marks} {ws : List LinkWord} (hbody : Sends m ws s (sendingBody i s)) (ht : exec i s = .next t) :
    ∃ u, Done m ws s u ∧ t = u.respond codeOK := by
  obtain ⟨hready, _⟩ := hs
  obtain ⟨u, hu, hd⟩ := hbody.completes hn
  rw [exec_of_isSending hi, ready_runs hready, inOrder_single, hu, finish_ok] at ht
  cases ht
  exact ⟨u, hd, rfl⟩

/-- The block still serves after a completed request, with no failure ahead. -/
theorem Done.serving {m : Marks → Marks} {ws : List LinkWord} {s u : State} (h : Done m ws s u) (hs : Serving s)
    (hn : NoFailure s) : Serving (u.respond codeOK) ∧ NoFailure (u.respond codeOK) := by
  obtain ⟨hready, ho⟩ := hs
  exact ⟨⟨h.keeps.phase.trans hready, h.keeps.tpOpen.trans ho⟩, fun a ha => hn a (h.answers.subset ha)⟩

/-- The controller side after a request whose words are taken. -/
theorem Takes.of_exec {i : Instr} (hi : isSending i = true) {s t : State} (hs : Serving s) (hn : NoFailure s)
    {m : Marks → Marks} {ws : List LinkWord} {c : Controller} (htakes : Takes ws s c)
    (hbody : Sends m ws s (sendingBody i s)) (ht : exec i s = .next t) : t.ctl = c := by
  obtain ⟨u, hd, rfl⟩ := exec_sending_done hi hs hn hbody ht
  exact hd.ctl.trans htakes.ctl

/-- A rejected request does not answer OK (60_exceptions R201). -/
theorem rsp_ne_zero_of_rejected {i : Instr} {e : Err} {s t : State}
    (h : ∃ u, exec i s = .next u ∧ RejectedWith e s u) (ht : exec i s = .next t) : t.rsp ≠ 0 := by
  obtain ⟨u, hu, hrejected⟩ := h
  obtain ⟨_, hcode⟩ := errCode_defined e
  obtain rfl : u = t := by simpa [hu] using ht
  rw [hrejected]
  exact hcode

/-- A byte after a 0 byte, as a 16-bit value (30_encoding R85). -/
theorem zero_append_ofNat {n : Nat} (h : n ≤ 255) : 0#8 ++ BitVec.ofNat 8 n = BitVec.ofNat 16 n := by
  apply BitVec.eq_of_toNat_eq
  refine (toNat_append_add (0#8) (BitVec.ofNat 8 n)).trans ?_
  simp only [BitVec.toNat_ofNat]
  omega

/-! ### The statements -/

/-- Settles O56: an accepted window passed the range check, and its words are taken (`takes_window`). -/
theorem controllerTakesWindow : Obligations.ControllerTakesWindow := by
  unfold Obligations.ControllerTakesWindow
  intro s t x y w h hs hn howed ht hrsp
  have ⟨hready, ho⟩ := hs
  cases hr : (windowSums x y w h).inRange with
  | true =>
    obtain ⟨hxs, hxe, hys, hye⟩ := WindowSums.inRange_iff.1 hr
    have hctl := (takes_window howed _).of_exec rfl hs hn (setWindowBody_sends hr ho) ht
    simp only [WindowSums.bytes, zero_append_ofNat hxs, zero_append_ofNat hxe, zero_append_ofNat hys,
      zero_append_ofNat hye] at hctl
    exact hctl
  | false => exact absurd hrsp (rsp_ne_zero_of_rejected (exec_setWindow_rejected hready hr) ht)

/-- Settles O57: an accepted operand names an orientation, whose byte is the one after MADCTR. -/
theorem controllerTakesOrientation : Obligations.ControllerTakesOrientation := by
  unfold Obligations.ControllerTakesOrientation
  intro s t d hs hn howed ht hrsp
  have ⟨hready, ho⟩ := hs
  cases hd : orientationOf d with
  | some o =>
    have hsends := sendOrientation_sends o ho
    rw [← setOrientationBody_of_some hd] at hsends
    obtain ⟨u, hdone, rfl⟩ := exec_sending_done rfl hs hn hsends ht
    have horient : u.orient = o := congrArg Marks.orient hdone.marks
    have htakes := takes_command howed (code := codeMADCTR) (by decide) (by decide) [madctrByte s.params o]
    rw [receiveBytes_madctr] at htakes
    rw [State.respond_ctl, State.respond_orient, horient]
    exact hdone.ctl.trans htakes.ctl
  | none =>
    have hrejected := exec_sending_rejected (i := .setOrientation d) rfl hready (by simp) (setOrientationBody_of_none hd s)
    exact absurd hrsp (rsp_ne_zero_of_rejected hrejected ht)

/-- Settles O58: the body sends the two bytes of `p`, and the open stream takes them (`receiveBytes_ramwr`). -/
theorem controllerTakesPixelBytes : Obligations.ControllerTakesPixelBytes := by
  unfold Obligations.ControllerTakesPixelBytes
  intro s t p hs hn howed hcmd hmode ht
  have ⟨_, ho⟩ := hs
  have hsends := sendBytes_sends (pixel16 p) ho
  rw [← sendPixelP16Body_mode16 p hmode] at hsends
  have htakes := takes_data howed (pixel16 p)
  rw [receiveBytes_ramwr _ hcmd] at htakes
  exact htakes.of_exec rfl hs hn hsends ht

/-- Settles O59: SLPOUT and DISPON are one command word; COLMOD owes no quiet time and leaves the block serving, so the data
word after it is its parameter. -/
theorem controllerTakesStateCommands : Obligations.ControllerTakesStateCommands := by
  unfold Obligations.ControllerTakesStateCommands
  intro s t hs hn howed
  have ⟨_, ho⟩ := hs
  refine ⟨fun ht => ?_, fun ht => ?_, fun d u hd ht hu => ?_⟩
  · obtain ⟨v, hdone, rfl⟩ := exec_sending_done rfl hs hn (sendCmd_sends codeSLPOUT ho) ht
    exact hdone.ctl.trans ((deliver_commandWord_ctl howed codeSLPOUT).trans (receiveCommand_slpout _ _))
  · obtain ⟨v, hdone, rfl⟩ := exec_sending_done rfl hs hn (sendCmd_sends codeDISPON ho) ht
    exact hdone.ctl.trans ((deliver_commandWord_ctl howed codeDISPON).trans (receiveCommand_dispon _ _))
  · have hmode : colorModeKnown d = true := by rcases hd with rfl | rfl | rfl <;> rfl
    obtain ⟨v, hdone, rfl⟩ := exec_sending_done rfl hs hn (sendCmd_sends codeCOLMOD ho) ht
    obtain ⟨hctl, hquiet⟩ := takes_command howed (code := codeCOLMOD) (by decide) (by decide) []
    obtain ⟨hserving, hahead⟩ := hdone.serving hs hn
    have ⟨_, hopen⟩ := hserving
    have htakes := takes_data (s := v.respond codeOK) (hdone.owed.trans hquiet) [d]
    rw [State.respond_ctl, hdone.ctl.trans hctl, Controller.receiveBytes, receiveBytes_colmod _ _ _ hmode] at htakes
    exact htakes.of_exec rfl hserving hahead (sendData_sends d hopen) hu

end Sys2Proof.Machine
end

section
/-! PROOFS. Link words presented by themselves (log 11): each is SEND_CMD or SEND_DATA of its byte, so what those two
requests complete with (42_framer) is what the words complete with. -/

namespace Sys2Proof.Machine

/-- Each of the nine command words, put on the link, is SEND_CMD of its code (log 11). -/
theorem exec_of_namedCommand {i : Instr} {code : Byte} (h : namedCommand i = some code) :
    exec i = exec (.sendCmd code) := by
  cases i with
  | swreset | slpout | dispon | caset | raset | ramwr | madctr | colmod | nvctr => cases h; rfl
  | init | close | pack565 | unpack565 | frameCmd | frameData => cases h
  | setOrientation | setWindow | clear | sendPixel | sendPixelP16 | sendCmd | sendData | data => cases h

/-- The data word, put on the link, is SEND_DATA of its byte (log 11). -/
theorem exec_data_eq (d : Byte) : exec (.data d) = exec (.sendData d) := rfl

/-- Settles O32: a command word is SEND_CMD of its code, which `sendCmdCompletes` completes. -/
theorem commandWordsComplete : Obligations.CommandWordsComplete := by
  unfold Obligations.CommandWordsComplete
  intro i code s hcode hs hn
  rw [exec_of_namedCommand hcode]
  exact sendCmdCompletes s code hs hn

/-- Settles O33: the data word is SEND_DATA of its byte, which `sendDataCompletes` completes. -/
theorem dataWordCompletes : Obligations.DataWordCompletes := by
  unfold Obligations.DataWordCompletes
  intro d s hs hn
  rw [exec_data_eq]
  exact sendDataCompletes s d hs hn

end Sys2Proof.Machine
end

section
/-! PROOFS. Errors (60_exceptions) and the phase table (43_sequencer R145). What the body of a sending request and INIT can
raise, and in which state, is said once (`sendingBody_raises`, `initBody_cases_off`); what a body that fails has written of
`ORIENT` and `WIN` is `sendingBody_raised_keeps`. -/

namespace Sys2Proof.Machine

/-! ### Requests in a phase that does not serve them (60_exceptions R205) -/

/-- A sending request outside `READY`. -/
theorem exec_sending_notReady {i : Instr} (hi : isSending i = true) {s : State} (hphase : s.phase ≠ .ready) :
    ∃ t, exec i s = .next t ∧ RejectedWith .notReady s t := by
  rw [exec_of_isSending hi, notReady_raises hphase]
  exact finish_rejects (by simp) s

/-- INIT outside `OFF`. -/
theorem exec_init_notOff {s : State} (hphase : s.phase ≠ .off) :
    ∃ t, exec .init s = .next t ∧ RejectedWith .notReady s t := by
  rw [exec_init_eq, initBody_notOff hphase]
  exact finish_rejects (by simp) s

/-- CLOSE outside `READY` and `FAILED`. -/
theorem exec_close_notReady {s : State} (hready : s.phase ≠ .ready) (hfailed : s.phase ≠ .failed) :
    ∃ t, exec .close s = .next t ∧ RejectedWith .notReady s t := by
  obtain ⟨_, hrejects, _⟩ := closeCompletes
  refine hrejects s ?_
  cases hphase : s.phase with
  | off => exact .inl rfl
  | init => exact .inr (.inl rfl)
  | closed => exact .inr (.inr rfl)
  | ready => exact absurd hphase hready
  | failed => exact absurd hphase hfailed

/-- The phase `p` does not serve `i`: the cases of the statement `NotReadyRejects`. -/
def Unserved (i : Instr) (p : Phase) : Prop :=
  (isSending i = true ∧ p ≠ .ready) ∨ (i = .init ∧ p ≠ .off) ∨ (i = .close ∧ p ≠ .ready ∧ p ≠ .failed)

/-- The phase check of each request comes first. -/
theorem exec_unserved {i : Instr} {s : State} (h : Unserved i s.phase) :
    ∃ t, exec i s = .next t ∧ RejectedWith .notReady s t := by
  rcases h with ⟨hi, hphase⟩ | ⟨rfl, hphase⟩ | ⟨rfl, hready, hfailed⟩
  · exact exec_sending_notReady hi hphase
  · exact exec_init_notOff hphase
  · exact exec_close_notReady hready hfailed

/-- Settles O40: the requests and phases are those of `Unserved`. -/
theorem notReadyRejects : Obligations.NotReadyRejects := by
  unfold Obligations.NotReadyRejects
  exact fun i s h => exec_unserved h

/-! ### What the body of a sending request can raise (60_exceptions R202 to R204) -/

section
variable {s u : State} {e : Err}

/-- A body that sends words through the handle, and stops without it, raises a transport failure only. -/
theorem transport_of_raised {m : Marks → Marks} {ws : List LinkWord} {p : Proc}
    (hopen : s.tpOpen = true → Sends m ws s (p s)) (hclosed : s.tpOpen = false → p s = .stopped .transportNotOpen)
    (h : p s = .raised e u) : e = .transport := by
  cases ho : s.tpOpen with
  | true =>
    have hs := hopen ho
    rw [h] at hs
    exact hs.1
  | false =>
    rw [hclosed ho] at h
    cases h

/-- `COLORMODE` has pixels, has none, or is none of its values (10_state R23). -/
theorem colorMode_cases (mode : Byte) : (mode = mode16 ∨ mode = mode18) ∨ mode = mode12 ∨
    (mode ≠ mode16 ∧ mode ≠ mode18 ∧ mode ≠ mode12) := by
  tauto

/-- A sequence raises what its first part raises, or what the rest raises once the first part is complete. -/
theorem andThen_raised {r : Run} {q : Proc} (h : r.andThen q = .raised e u) :
    r = .raised e u ∨ ∃ t, r = .ok t ∧ q t = .raised e u := by
  cases r with
  | ok t => exact .inr ⟨t, rfl, h⟩
  | raised e' t => exact .inl h
  | stopped f => cases h

/-- A transport failure, or an operand or mode error in the state the body started from. -/
def RaisedProperly (s : State) (e : Err) (u : State) : Prop :=
  e = .transport ∨ (e = .invalidParam ∨ e = .unsupportedMode) ∧ u = s

theorem streamPixel_raises {c : Color} (h : streamPixel c s = .raised e u) : RaisedProperly s e u := by
  rcases colorMode_cases s.colorMode with hm | hm | ⟨h16, h18, h12⟩
  · exact .inl (transport_of_raised (fun ho => streamPixel_sends c ho hm) (streamPixel_closed c hm) h)
  · rw [streamPixel_unsupported c hm] at h
    cases h
    exact .inr ⟨.inr rfl, rfl⟩
  · rw [streamPixel_unknown c h16 h18 h12] at h
    cases h

/-- In a mode that does not exist CLEAR stops at its first pixel, so only its window can raise. -/
theorem clearBody_raises {c : Color} (h : clearBody c s = .raised e u) : RaisedProperly s e u := by
  rcases colorMode_cases s.colorMode with hm | hm | ⟨h16, h18, h12⟩
  · have h12 : s.colorMode ≠ mode12 := by rcases hm with hm | hm <;> rw [hm] <;> decide
    exact .inl (transport_of_raised (fun ho => clearBody_sends c ho hm) (clearBody_closed c h12) h)
  · rw [clearBody_unsupported c hm] at h
    cases h
    exact .inr ⟨.inr rfl, rfl⟩
  · have hmode := (tolerates_setup.composes.setWindowBody 0 0 (BitVec.ofNat 16 Config.panelW)
      (BitVec.ofNat 16 Config.panelH)) s
    rw [clearBody_runs c h12] at h
    rcases andThen_raised h with hw | ⟨v, hw, hloop⟩
    · exact .inl (transport_of_raised (setWindowBody_sends panel_inRange) (setWindowBody_closed panel_inRange) hw)
    · rw [hw] at hmode
      have hv : v.colorMode = s.colorMode := hmode.colorMode
      rw [inOrder_cons, clearLoop_unknown c (by decide) (by rwa [hv]) (by rwa [hv]) (by rwa [hv])] at hloop
      cases hloop

/-- Whatever the state, the body of a sending request raises a transport failure, or rejects the operands or the mode before
it has written anything. -/
theorem sendingBody_raises {i : Instr} (hi : isSending i = true) (h : sendingBody i s = .raised e u) :
    RaisedProperly s e u := by
  cases i with
  | init | close | pack565 | unpack565 | frameCmd | frameData => cases hi
  | sendCmd | swreset | slpout | dispon | caset | raset | ramwr | madctr | colmod | nvctr =>
    exact .inl (transport_of_raised (sendCmd_sends _) (sendCmd_closed _) h)
  | sendData b | data b => exact .inl (transport_of_raised (sendData_sends b) (linkSend_closed _) h)
  | setOrientation d =>
    cases ho : orientationOf d with
    | some o =>
      rw [sendingBody, setOrientationBody_of_some ho] at h
      exact .inl (transport_of_raised (sendOrientation_sends o) (sendOrientation_closed o) h)
    | none =>
      rw [sendingBody, setOrientationBody_of_none ho] at h
      cases h
      exact .inr ⟨.inl rfl, rfl⟩
  | setWindow x y w hh =>
    cases hr : (windowSums x y w hh).inRange with
    | true => exact .inl (transport_of_raised (setWindowBody_sends hr) (setWindowBody_closed hr) h)
    | false =>
      rw [sendingBody, setWindowBody_rejects hr] at h
      cases h
      exact .inr ⟨.inl rfl, rfl⟩
  | clear r g b => exact clearBody_raises h
  | sendPixel r g b => exact streamPixel_raises h
  | sendPixelP16 p =>
    rw [sendingBody] at h
    rcases inOrder_require_cases (fun t => t.colorMode == mode16) .unsupportedMode [sendBytes (pixel16 p)] s with
      ⟨_, hr⟩ | ⟨_, hr⟩
    · rw [hr, inOrder_single] at h
      exact .inl (transport_of_raised (sendBytes_sends _) (sendBytes_closed (by simp [pixel16])) h)
    · rw [hr] at h
      cases h
      exact .inr ⟨.inr rfl, rfl⟩

/-! ### What INIT and CLOSE can raise (43_sequencer R130, R143, R144) -/

/-- INIT in `OFF`: its checks reject the strap, the build fails, the steps complete, or a step is cut short. -/
theorem initBody_cases_off (hoff : s.phase = .off) :
    (∃ e, (e = .invalidParam ∨ e = .unsupportedMode) ∧ initBody s = .raised e s) ∨
    (∃ v, v.phase = .off ∧ initBody s = .raised .transport v) ∨
    (∃ v, v.phase = .ready ∧ initBody s = .ok v) ∨
    ∃ v, v.phase = .init ∧ initBody s = .raised .transport v := by
  rcases colorMode_cases s.straps.colorMode with hm | hm | ⟨h16, h18, h12⟩
  · rcases initBody_cases hoff hm with ⟨as, _, hbody⟩ | ⟨as, _, hbody⟩
    · have hrun := built_steps_run hm as
      rw [hbody]
      cases hr : initSteps (s.built as) with
      | ok v => exact .inr (.inr (.inl ⟨{ v with phase := .ready }, rfl, rfl⟩))
      | raised e v =>
        rw [hr] at hrun
        obtain ⟨rfl, hkeeps, _⟩ := hrun
        exact .inr (.inr (.inr ⟨v, hkeeps.phase, rfl⟩))
      | stopped f =>
        rw [hr] at hrun
        exact hrun.elim
    · exact .inr (.inl ⟨{ s.latchStraps with answers := as }, hoff, hbody⟩)
  · exact .inl ⟨.unsupportedMode, .inr rfl, initBody_mode12 hoff hm⟩
  · exact .inl ⟨.invalidParam, .inl rfl, initBody_unknownMode hoff h12 h16 h18⟩

end

/-! ### What each request answers, and in which phase (43_sequencer R145) -/

section
variable {s t : State}

/-- A property that some next state of an instruction has, its next state has. -/
theorem of_exec_next {i : Instr} {P : State → Prop} (h : ∃ u, exec i s = .next u ∧ P u) (ht : exec i s = .next t) :
    P t := by
  obtain ⟨u, hu, hp⟩ := h
  rw [hu] at ht
  cases ht
  exact hp

/-- The operands or the mode were rejected (60_exceptions R203, R204). -/
def RejectedOperand (s t : State) : Prop := ∃ e, (e = .invalidParam ∨ e = .unsupportedMode) ∧ RejectedWith e s t

/-- Entry of an operand or mode error. -/
theorem enter_rejectedOperand {e : Err} (he : e = .invalidParam ∨ e = .unsupportedMode) (s : State) :
    RejectedOperand s (s.enter e) :=
  ⟨e, he, enter_rejects (by rcases he with rfl | rfl <;> simp) s⟩

theorem exec_pure_answers {i : Instr} (hi : isPure i = true) (ht : exec i s = .next t) : t.phase = s.phase ∧ t.rsp = 0 := by
  cases i with
  | pack565 | unpack565 | frameCmd | frameData => cases ht; exact ⟨rfl, rfl⟩
  | init | close | setOrientation | setWindow | clear | sendPixel | sendPixelP16 | sendCmd | sendData => cases hi
  | swreset | slpout | dispon | caset | raset | ramwr | madctr | colmod | nvctr | data => cases hi

/-- A sending request served in `READY`: rejected, completed, or cut short. -/
theorem exec_sending_answers {i : Instr} (hi : isSending i = true) (hready : s.phase = .ready) (ht : exec i s = .next t) :
    RejectedOperand s t ∨ (t.phase = .ready ∧ t.rsp = 0) ∨ (t.phase = .failed ∧ t.rsp = 1) := by
  have hsteady := sendingBody_steady i s
  rw [exec_of_isSending hi, ready_runs hready, inOrder_single] at ht
  rcases finish_cases ht with ⟨u, hu, rfl⟩ | ⟨e, u, hu, rfl⟩
  · rw [hu] at hsteady
    obtain ⟨hkeeps, _⟩ := hsteady
    exact .inr (.inl ⟨hkeeps.phase.trans hready, rfl⟩)
  · rcases sendingBody_raises hi hu with rfl | ⟨he, rfl⟩
    · rw [hu] at hsteady
      obtain ⟨hkeeps, _⟩ := hsteady
      rw [enter_transport_ready (hkeeps.phase.trans hready)]
      exact .inr (.inr ⟨rfl, rfl⟩)
    · exact .inl (enter_rejectedOperand he u)

/-- INIT served in `OFF`: rejected, failed in its build, completed, or cut short. -/
theorem exec_init_answers (hoff : s.phase = .off) (ht : exec .init s = .next t) :
    RejectedOperand s t ∨ (t.phase = .off ∧ t.rsp = 1) ∨ (t.phase = .ready ∧ t.rsp = 0) ∨ (t.phase = .failed ∧ t.rsp = 1) := by
  rw [exec_init_eq] at ht
  rcases initBody_cases_off hoff with ⟨e, he, hr⟩ | ⟨v, hv, hr⟩ | ⟨v, hv, hr⟩ | ⟨v, hv, hr⟩ <;> rw [hr] at ht <;> cases ht
  · exact .inl (enter_rejectedOperand he s)
  · rw [enter_transport_off hv]
    exact .inr (.inl ⟨hv, rfl⟩)
  · exact .inr (.inr (.inl ⟨hv, rfl⟩))
  · rw [enter_transport_init hv]
    exact .inr (.inr (.inr ⟨rfl, rfl⟩))

/-- CLOSE served in `READY` or `FAILED`. -/
theorem exec_close_answers (hphase : s.phase = .ready ∨ s.phase = .failed) (ht : exec .close s = .next t) :
    t.phase = .closed ∧ t.rsp = 0 := by
  obtain ⟨hcompletes, _, _⟩ := closeCompletes
  have hframe := of_exec_next (hcompletes s hphase) ht
  rw [hframe]
  exact ⟨rfl, rfl⟩

/-- An instruction is pure, not served in the phase, or a request that the phase serves. -/
theorem instr_phase_cases (i : Instr) (p : Phase) :
    isPure i = true ∨ Unserved i p ∨ (isSending i = true ∧ p = .ready) ∨ (i = .init ∧ p = .off) ∨
      (i = .close ∧ (p = .ready ∨ p = .failed)) := by
  have sending : isSending i = true → Unserved i p ∨ (isSending i = true ∧ p = .ready) := fun hi => by
    by_cases hready : p = .ready
    · exact .inr ⟨hi, hready⟩
    · exact .inl (.inl ⟨hi, hready⟩)
  cases i with
  | pack565 | unpack565 | frameCmd | frameData => exact .inl rfl
  | setOrientation | setWindow | clear | sendPixel | sendPixelP16 | sendCmd | sendData =>
    exact .inr ((sending rfl).imp_right .inl)
  | swreset | slpout | dispon | caset | raset | ramwr | madctr | colmod | nvctr | data =>
    exact .inr ((sending rfl).imp_right .inl)
  | init =>
    by_cases hoff : p = .off
    · exact .inr (.inr (.inr (.inl ⟨rfl, hoff⟩)))
    · exact .inr (.inl (.inr (.inl ⟨rfl, hoff⟩)))
  | close =>
    by_cases hphase : p = .ready ∨ p = .failed
    · exact .inr (.inr (.inr (.inr ⟨rfl, hphase⟩)))
    · exact .inr (.inl (.inr (.inr ⟨rfl, not_or.1 hphase⟩)))

/-- Every answer is OK, a transport failure, or a rejection. -/
theorem exec_answers {i : Instr} (ht : exec i s = .next t) : t.rsp = 0 ∨ t.rsp = 1 ∨ ∃ e, RejectedWith e s t := by
  rcases instr_phase_cases i s.phase with hi | hun | ⟨hi, hready⟩ | ⟨rfl, hoff⟩ | ⟨rfl, hphase⟩
  · obtain ⟨_, hok⟩ := exec_pure_answers hi ht
    exact .inl hok
  · exact .inr (.inr ⟨_, of_exec_next (exec_unserved hun) ht⟩)
  · rcases exec_sending_answers hi hready ht with ⟨e, _, hr⟩ | ⟨_, hok⟩ | ⟨_, hfail⟩
    · exact .inr (.inr ⟨e, hr⟩)
    · exact .inl hok
    · exact .inr (.inl hfail)
  · rcases exec_init_answers hoff ht with ⟨e, _, hr⟩ | ⟨_, hfail⟩ | ⟨_, hok⟩ | ⟨_, hfail⟩
    · exact .inr (.inr ⟨e, hr⟩)
    · exact .inr (.inl hfail)
    · exact .inl hok
    · exact .inr (.inl hfail)
  · obtain ⟨_, hok⟩ := exec_close_answers hphase ht
    exact .inl hok

end

theorem RejectedWith.rsp {e : Err} {s t : State} (h : RejectedWith e s t) : t.rsp = errCode e := by
  rw [h]

theorem RejectedWith.phase {e : Err} {s t : State} (h : RejectedWith e s t) : t.phase = s.phase := by
  rw [h]

/-- The error classes have different codes (60_exceptions R201). -/
theorem errCode_injective : Function.Injective errCode := by
  intro e e' h
  cases e <;> cases e' <;> simp [errCode] at h ⊢

/-- Settles O43: an answer that is neither OK nor a transport failure is a rejection, and its code names the error. -/
theorem rejectionHasNoOtherEffect : Obligations.RejectionHasNoOtherEffect := by
  unfold Obligations.RejectionHasNoOtherEffect
  intro i s t e he ht hrsp
  rcases exec_answers ht with hok | hfail | ⟨e', hr⟩
  · obtain ⟨_, hne⟩ := errCode_defined e
    exact absurd (hrsp.symm.trans hok) hne
  · exact absurd (eq_transport_of_errCode (hrsp.symm.trans hfail)) he
  · obtain rfl : e' = e := errCode_injective (hr.rsp.symm.trans hrsp)
    exact hr

/-! ### The phase table (43_sequencer R145) -/

/-- Operand and mode errors leave the phase and answer 2 or 3. -/
theorem RejectedOperand.phase_rsp {s t : State} (h : RejectedOperand s t) : t.phase = s.phase ∧ (t.rsp = 2 ∨ t.rsp = 3) := by
  obtain ⟨e, rfl | rfl, hr⟩ := h
  · exact ⟨hr.phase, .inl hr.rsp⟩
  · exact ⟨hr.phase, .inr hr.rsp⟩

section
variable {i : Instr} {p : Phase}

theorem phaseRow_of_isPure (hi : isPure i = true) (q : Phase) (rsp : BitVec 3) :
    phaseRow i p q rsp = (q == p && rsp == 0) := by
  simp [phaseRow, hi]

theorem isPure_of_isSending (hi : isSending i = true) : isPure i = false := by
  cases i with
  | init | close | pack565 | unpack565 | frameCmd | frameData => cases hi
  | setOrientation | setWindow | clear | sendPixel | sendPixelP16 | sendCmd | sendData => rfl
  | swreset | slpout | dispon | caset | raset | ramwr | madctr | colmod | nvctr | data => rfl

/-- The row of a sending request in `READY`. -/
theorem phaseRow_sending_ready (hi : isSending i = true) (q : Phase) (rsp : BitVec 3) :
    phaseRow i .ready q rsp = ((q == .ready && (rsp == 0 || rsp == 2 || rsp == 3)) || (q == .failed && rsp == 1)) := by
  simp [phaseRow, hi, isPure_of_isSending hi]

/-- The rows of the phases that do not serve the request: the phase stays, the answer is `E_NOT_READY`. -/
theorem phaseRow_unserved (h : Unserved i p) : phaseRow i p p 4 = true := by
  rcases h with ⟨hi, hp⟩ | ⟨rfl, hp⟩ | ⟨rfl, hready, hfailed⟩
  · cases p with
    | ready => exact absurd rfl hp
    | off | init | failed | closed => simp [phaseRow, hi, isPure_of_isSending hi]
  · cases p with
    | off => exact absurd rfl hp
    | init | ready | failed | closed => rfl
  · cases p with
    | ready => exact absurd rfl hready
    | failed => exact absurd rfl hfailed
    | off | init | closed => rfl

end

/-- Settles O45: the rejection of a request that is not served is a row, and so is each answer of one that is. -/
theorem phaseTableIsComplete : Obligations.PhaseTableIsComplete := by
  unfold Obligations.PhaseTableIsComplete
  intro i s t ht
  rcases instr_phase_cases i s.phase with hi | hun | ⟨hi, hready⟩ | ⟨rfl, hoff⟩ | ⟨rfl, hphase⟩
  · obtain ⟨hphase, hrsp⟩ := exec_pure_answers hi ht
    rw [phaseRow_of_isPure hi, hphase, hrsp]
    simp
  · have hr := of_exec_next (exec_unserved hun) ht
    rw [hr.phase, hr.rsp]
    exact phaseRow_unserved hun
  · rw [hready, phaseRow_sending_ready hi]
    rcases exec_sending_answers hi hready ht with hr | ⟨hphase, hrsp⟩ | ⟨hphase, hrsp⟩
    · obtain ⟨hphase, hrsp | hrsp⟩ := hr.phase_rsp <;> simp [hphase, hready, hrsp]
    · simp [hphase, hrsp]
    · simp [hphase, hrsp]
  · rw [hoff]
    rcases exec_init_answers hoff ht with hr | ⟨hphase, hrsp⟩ | ⟨hphase, hrsp⟩ | ⟨hphase, hrsp⟩
    · obtain ⟨hphase, hrsp | hrsp⟩ := hr.phase_rsp <;> rw [hphase, hoff, hrsp] <;> rfl
    all_goals rw [hphase, hrsp]; rfl
  · obtain ⟨hclosed, hrsp⟩ := exec_close_answers hphase ht
    rw [hclosed, hrsp]
    rcases hphase with hphase | hphase <;> rw [hphase] <;> rfl

/-! ### A transport failure inside a sending request (60_exceptions R202) -/

/-- What the words of a request never write: `ORIENT` and `WIN`. -/
def KeepsOrientWin (s t : State) : Prop := t.orient = s.orient ∧ t.win = s.win

theorem KeepsOrientWin.refl (s : State) : KeepsOrientWin s s := ⟨rfl, rfl⟩

theorem KeepsOrientWin.trans (a b c : State) (h : KeepsOrientWin a b) (k : KeepsOrientWin b c) : KeepsOrientWin a c :=
  ⟨k.1.trans h.1, k.2.trans h.2⟩

/-- What a procedure respects holds where it raised an error. -/
theorem Respects.of_raised {R : State → State → Prop} {p : Proc} (hp : Respects R p) {s u : State} {e : Err}
    (h : p s = .raised e u) : R s u := by
  have hs := hp s
  rw [h] at hs
  exact hs

/-- A list of statements and a register write at its end. -/
theorem inOrder_append_assign (ps : List Proc) (f : State → State) (s : State) :
    inOrder (ps ++ [assign f]) s = (inOrder ps s).andThen (assign f) := by
  induction ps generalizing s with
  | nil => rfl
  | cons p ps ih =>
    rw [List.cons_append, inOrder_cons, inOrder_cons]
    cases p s with
    | ok t => exact ih t
    | raised e t => rfl
    | stopped g => rfl

/-- A list of statements that ends in a register write raises its errors before that write. -/
theorem raised_before_write {R : State → State → Prop} {ps : List Proc} (hp : Respects R (inOrder ps))
    {f : State → State} {s u : State} {e : Err} (h : inOrder (ps ++ [assign f]) s = .raised e u) : R s u := by
  rw [inOrder_append_assign] at h
  rcases andThen_raised h with hr | ⟨t, _, hw⟩
  · exact hp.of_raised hr
  · cases hw

theorem linkSend_keepsOrientWin (w : LinkWord) : Respects KeepsOrientWin (linkSend w) := by
  intro s
  have hmarks := linkSend_keeps_marks w s
  cases hr : linkSend w s with
  | ok t | raised e t =>
    rw [hr] at hmarks
    exact ⟨congrArg Marks.orient hmarks, congrArg Marks.win hmarks⟩
  | stopped f => trivial

theorem inOrder_keepsOrientWin {ps : List Proc} (h : ∀ p ∈ ps, Respects KeepsOrientWin p) :
    Respects KeepsOrientWin (inOrder ps) :=
  Respects.inOrder KeepsOrientWin.refl KeepsOrientWin.trans h

theorem sendCmd_keepsOrientWin (b : Byte) : Respects KeepsOrientWin (sendCmd b) :=
  inOrder_keepsOrientWin (by
    simp only [List.forall_mem_cons]
    exact ⟨linkSend_keepsOrientWin _, Respects.assign fun s => ⟨rfl, rfl⟩, by simp⟩)

theorem sendData_keepsOrientWin (b : Byte) : Respects KeepsOrientWin (sendData b) :=
  linkSend_keepsOrientWin _

theorem sendBytes_keepsOrientWin (bs : List Byte) : Respects KeepsOrientWin (sendBytes bs) :=
  sendBytes_respects KeepsOrientWin.refl KeepsOrientWin.trans linkSend_keepsOrientWin bs

theorem streamPixel_keepsOrientWin (c : Color) : Respects KeepsOrientWin (streamPixel c) := by
  intro s
  rcases colorMode_cases s.colorMode with (hm | hm) | hm | ⟨h16, h18, h12⟩
  · rw [streamPixel, if_pos hm]
    exact sendBytes_keepsOrientWin _ s
  · rw [streamPixel, if_neg (by rw [hm]; decide), if_pos hm]
    exact sendBytes_keepsOrientWin _ s
  · rw [streamPixel_unsupported c hm]
    exact KeepsOrientWin.refl s
  · rw [streamPixel_unknown c h16 h18 h12]
    trivial

theorem clearLoop_keepsOrientWin (c : Color) (n : Nat) : Respects KeepsOrientWin (clearLoop c n) := by
  induction n with
  | zero => exact KeepsOrientWin.refl
  | succ n ih =>
    refine inOrder_keepsOrientWin ?_
    simp only [List.forall_mem_cons]
    exact ⟨Respects.assign fun s => ⟨rfl, rfl⟩, streamPixel_keepsOrientWin c, ih, by simp⟩

section
variable {s u : State} {e : Err}

/-- `ORIENT` is written after both words (46_orientation R170). -/
theorem sendOrientation_raised_keeps {o : Orientation} (h : sendOrientation o s = .raised e u) : KeepsOrientWin s u := by
  refine raised_before_write (ps := [sendCmd codeMADCTR, fun s => sendData (madctrByte s.params o) s])
    (inOrder_keepsOrientWin ?_) h
  simp only [List.forall_mem_cons]
  exact ⟨sendCmd_keepsOrientWin _, fun s => sendData_keepsOrientWin _ s, by simp⟩

/-- `WIN` is written after all eleven words (44_window_clear R150). -/
theorem sendWindow_raised_keeps {v : Window} (h : sendWindow v s = .raised e u) : KeepsOrientWin s u := by
  refine raised_before_write (ps := [sendCmd codeCASET, sendBytes (coordinate v.xs ++ coordinate v.xe), sendCmd codeRASET,
    sendBytes (coordinate v.ys ++ coordinate v.ye), sendCmd codeRAMWR]) (inOrder_keepsOrientWin ?_) h
  simp only [List.forall_mem_cons]
  exact ⟨sendCmd_keepsOrientWin _, sendBytes_keepsOrientWin _, sendCmd_keepsOrientWin _, sendBytes_keepsOrientWin _,
    sendCmd_keepsOrientWin _, by simp⟩

theorem setWindowBody_raised_keeps {x y w hh : Half} (h : setWindowBody x y w hh s = .raised e u) : KeepsOrientWin s u := by
  cases hr : (windowSums x y w hh).inRange with
  | true =>
    rw [setWindowBody, inOrder_cons, require_pass (c := fun _ => (windowSums x y w hh).inRange) hr, Run.ok_andThen,
      inOrder_single] at h
    exact sendWindow_raised_keeps h
  | false =>
    rw [setWindowBody_rejects hr] at h
    cases h
    exact KeepsOrientWin.refl s

/-- CLEAR fails inside its window, or after it, when `WIN` is the whole panel (44_window_clear R152). -/
theorem clearBody_raised_keeps {c : Color} (ho : s.tpOpen = true) (h : clearBody c s = .raised e u) :
    u.orient = s.orient ∧ (u.win = s.win ∨ u.win = some ⟨2, 131, 1, 162⟩) := by
  by_cases h12 : s.colorMode = mode12
  · rw [clearBody_unsupported c h12] at h
    cases h
    exact ⟨rfl, .inl rfl⟩
  · rw [clearBody_runs c h12] at h
    rcases andThen_raised h with hwindow | ⟨v, hwindow, hloop⟩
    · obtain ⟨horient, hwin⟩ := setWindowBody_raised_keeps hwindow
      exact ⟨horient, .inl hwin⟩
    · have hsent := setWindowBody_sends panel_inRange ho
      rw [hwindow] at hsent
      have hdone : Done _ _ s v := hsent
      have horient : v.orient = s.orient := congrArg Marks.orient hdone.marks
      have hpanel : v.win = some ⟨2, 131, 1, 162⟩ := congrArg Marks.win hdone.marks
      have ⟨korient, kwin⟩ : KeepsOrientWin v u := raised_before_write (ps := [clearLoop c Config.clearPixels])
        (inOrder_keepsOrientWin (by simp only [List.forall_mem_cons]; exact ⟨clearLoop_keepsOrientWin c _, by simp⟩)) hloop
      exact ⟨korient.trans horient, .inr (kwin.trans hpanel)⟩

/-- `ORIENT` and `WIN` where the body of a sending request failed. -/
theorem sendingBody_raised_keeps {i : Instr} (hi : isSending i = true) (ho : s.tpOpen = true)
    (h : sendingBody i s = .raised e u) :
    u.orient = s.orient ∧ (u.win = s.win ∨ (∃ r g b, i = .clear r g b) ∧ u.win = some ⟨2, 131, 1, 162⟩) := by
  have window_kept : KeepsOrientWin s u →
      u.orient = s.orient ∧ (u.win = s.win ∨ (∃ r g b, i = .clear r g b) ∧ u.win = some ⟨2, 131, 1, 162⟩) :=
    fun ⟨horient, hwin⟩ => ⟨horient, .inl hwin⟩
  cases i with
  | init | close | pack565 | unpack565 | frameCmd | frameData => cases hi
  | clear r g b =>
    obtain ⟨horient, hwin⟩ := clearBody_raised_keeps ho h
    exact ⟨horient, hwin.imp_right fun hpanel => ⟨⟨r, g, b, rfl⟩, hpanel⟩⟩
  | sendCmd | swreset | slpout | dispon | caset | raset | ramwr | madctr | colmod | nvctr =>
    exact window_kept ((sendCmd_keepsOrientWin _).of_raised h)
  | sendData b | data b => exact window_kept ((sendData_keepsOrientWin b).of_raised h)
  | setWindow x y w hh => exact window_kept (setWindowBody_raised_keeps h)
  | sendPixel r g b => exact window_kept ((streamPixel_keepsOrientWin _).of_raised h)
  | setOrientation d =>
    refine window_kept ?_
    cases hd : orientationOf d with
    | some o =>
      rw [sendingBody, setOrientationBody_of_some hd] at h
      exact sendOrientation_raised_keeps h
    | none =>
      rw [sendingBody, setOrientationBody_of_none hd] at h
      cases h
      exact KeepsOrientWin.refl s
  | sendPixelP16 p =>
    refine window_kept (Respects.of_raised (inOrder_keepsOrientWin ?_) h)
    simp only [List.forall_mem_cons]
    exact ⟨Respects.require KeepsOrientWin.refl _ _, sendBytes_keepsOrientWin _, by simp⟩

end

/-- Settles O41: the error is the transport failure of a body that was served, so what bodies keep holds where it failed, and
the error enters in `READY`. -/
theorem transportFailureEntry : Obligations.TransportFailureEntry := by
  unfold Obligations.TransportFailureEntry
  rintro i s t hi ⟨hready, ho⟩ ht hrsp
  rw [exec_of_isSending hi, ready_runs hready, inOrder_single] at ht
  rcases finish_cases ht with ⟨u, _, rfl⟩ | ⟨e, u, hu, rfl⟩
  · exact absurd hrsp (show codeOK ≠ 1 by decide)
  · rw [enter_rsp] at hrsp
    obtain rfl := eq_transport_of_errCode hrsp
    obtain ⟨hkeeps, _, _, hmirrors⟩ := (sendingBody_steady i).of_raised hu
    have hstep : u.stepNo = s.stepNo := (tolerates_stepNo.composes.sendingBody (fun _ _ => rfl) i).of_raised hu
    obtain ⟨horient, hwin⟩ := sendingBody_raised_keeps hi ho hu
    have hframe := hkeeps.frame_marks
    rw [horient, hstep] at hframe
    rw [enter_transport_ready (hkeeps.phase.trans hready)]
    refine ⟨hwin, hmirrors, ?_⟩
    exact congrArg (fun v : State => { v with
      err := 1, rsp := 1, res := Config.freeRes u.draws, phase := .failed, pixCnt := 0, bitCnt := 0
      ctl := Controller.unknown (u.draws + 1), draws := u.draws + 2 }) hframe

end Sys2Proof.Machine
end

section
/-! PROOFS. The host's acts that present no word, block reset among them (10_state R37, 70_reset_and_hazards R230), and the
quiet time that SWRESET owes the controller (70_reset_and_hazards R235). -/

namespace Sys2Proof.Machine

/-! ### Acts that present no word -/

theorem step_of_host_nil {s : State} (hhost : s.host = []) : step s = .next s := by
  simp only [step, hhost]

/-- Settles O9: serving the straps or a wait writes that one input, and the act is off the list. -/
theorem hostActsTouchOnlyTheirInputs : Obligations.HostActsTouchOnlyTheirInputs := by
  unfold Obligations.HostActsTouchOnlyTheirInputs
  refine ⟨fun s hhost => step_of_host_nil hhost, fun s p rest hhost => ?_, fun s ms rest hhost => ?_⟩
  · rw [step_of_host_cons hhost]
    rfl
  · rw [step_of_host_cons hhost]
    rfl

/-- Settles O55: the step is the block reset of the state without the act, whose registers stand in its definition. -/
theorem blockResetValues : Obligations.BlockResetValues := by
  unfold Obligations.BlockResetValues
  intro s rest hhost
  have hstep : step s = .next (s.withHost rest).blockReset := step_of_host_cons hhost
  exact ⟨_, hstep, rfl, rfl, rfl, rfl, rfl, rfl, rfl, rfl, rfl, rfl, rfl, rfl, rfl, rfl, rfl⟩

/-! ### The quiet time after SWRESET (70_reset_and_hazards R235) -/

/-- SWRESET leaves at least `T_SWRESET_MS` owed, whatever was owed before. -/
theorem le_owedAfterWord_swreset (owed : Nat) : 200 ≤ owedAfterWord (commandWord codeSWRESET) owed :=
  Nat.le_max_right owed 200

/-- A request of one word is SEND_CMD or SEND_DATA of a byte. -/
theorem exec_of_one_word {i : Instr}
    (h : (∃ b, i = .sendCmd b ∨ i = .sendData b ∨ i = .data b) ∨ (namedCommand i).isSome = true) :
    (∃ b, exec i = exec (.sendCmd b)) ∨ ∃ b, exec i = exec (.sendData b) := by
  rcases h with ⟨b, rfl | rfl | rfl⟩ | hname
  · exact .inl ⟨b, rfl⟩
  · exact .inr ⟨b, rfl⟩
  · exact .inr ⟨b, exec_data_eq b⟩
  · obtain ⟨code, hcode⟩ := Option.isSome_iff_exists.1 hname
    exact .inl ⟨code, exec_of_namedCommand hcode⟩

/-- A word sent while quiet time is owed leaves nothing stated of the controller. -/
theorem ctl_unknown_of_owed {i : Instr} (hi : isSending i = true) {s t : State} (hs : Serving s) (hn : NoFailure s)
    (howed : s.owed ≠ 0) {m : Marks → Marks} {w : LinkWord} (hbody : Sends m [w] s (sendingBody i s))
    (ht : exec i s = .next t) : t.ctl = Controller.unknown s.draws := by
  obtain ⟨u, hdone, rfl⟩ := exec_sending_done hi hs hn hbody ht
  calc u.ctl = Controller.receive s.draws s.owed w s.ctl := hdone.ctl
    _ = Controller.unknown s.draws := receive_owed howed w s.ctl

/-- Settles O60: SWRESET's word owes the quiet time, the block still serves, and the next word comes while it is owed. -/
theorem softwareResetOwesQuietTime : Obligations.SoftwareResetOwesQuietTime := by
  unfold Obligations.SoftwareResetOwesQuietTime
  intro s t hs hn ht
  rw [exec_of_namedCommand (i := .swreset) rfl, or_self] at ht
  have ⟨_, ho⟩ := hs
  obtain ⟨v, hdone, rfl⟩ := exec_sending_done (i := .sendCmd 0x01) rfl hs hn (sendCmd_sends 0x01 ho) ht
  obtain ⟨hserving, hahead⟩ := hdone.serving hs hn
  have ⟨_, hopen⟩ := hserving
  have howed : 200 ≤ (v.respond codeOK).owed := by
    rw [State.respond_owed, hdone.owed]
    exact le_owedAfterWord_swreset s.owed
  have hquiet : (v.respond codeOK).owed ≠ 0 := by omega
  refine ⟨howed, fun i u hi hu => ?_⟩
  rcases exec_of_one_word hi with ⟨b, hb⟩ | ⟨b, hb⟩
  · rw [hb] at hu
    exact ctl_unknown_of_owed (i := .sendCmd b) rfl hserving hahead hquiet (sendCmd_sends b hopen) hu
  · rw [hb] at hu
    exact ctl_unknown_of_owed (i := .sendData b) rfl hserving hahead hquiet (sendData_sends b hopen) hu

end Sys2Proof.Machine
end
